-- ==== Sys2Proof/Word.lean ====
section
/-! DEFINITION. The widths of spec/00_scope.md R6 and of the request word, 30_encoding.md R67. -/

namespace Sys2Proof

/-- A byte: 8 bits, unsigned (00_scope.md R6). -/
abbrev Byte := BitVec 8

/-- A parameter or a checksum: 16 bits, unsigned (00_scope.md R6). -/
abbrev Word16 := BitVec 16

/-- A frame: exactly ten bytes, offset 0 first (00_scope.md R6, R17; 20_memory.md R41). -/
abbrev Frame := Vector Byte 10

/-- The 26-bit operation request word (30_encoding.md R67; 92 D3). -/
abbrev RequestWord := BitVec 26

end Sys2Proof
end

