-- ==== Sys2Proof/Machine/FrameFormat.lean ====
section
/-! DEFINITION. The constants of the frame (00_scope.md R8 to R13), hardwired (10_state.md R24), and the code values the
source gives (30_encoding.md R76). -/

namespace Sys2Proof.Machine

/-- START (00_scope.md R8). -/
abbrev startByte : Byte := 0x7E#8

/-- END (00_scope.md R9). -/
abbrev endByte : Byte := 0xEF#8

/-- VERSION (00_scope.md R10). -/
abbrev versionByte : Byte := 0xFF#8

/-- LENGTH (00_scope.md R11). -/
abbrev lengthByte : Byte := 0x06#8

/-- FEEDBACK_FLAG (00_scope.md R12). -/
abbrev feedbackFlag : Byte := 0x00#8

/-- FRAME_LEN (00_scope.md R13). -/
abbrev frameLen : Nat := 10

/-- CMD_SET_VOLUME (30_encoding.md R76). -/
abbrev cmdSetVolume : Byte := 0x06#8

/-- CMD_PLAY_FOLDER_FILE (30_encoding.md R76). -/
abbrev cmdPlayFolderFile : Byte := 0x0F#8

/-- Feedback type "track-finished, TF card", a label only (30_encoding.md R76; 91 G3). -/
abbrev fbTrackFinished : Byte := 0x3C#8

end Sys2Proof.Machine
end

