-- ==== Sys2Proof/Machine/Operands.lean ====
section
/-! DEFINITION. Operand and field assembly (30_encoding.md R63 to R66), byte order (20_memory.md R43) and the buffer
primitives MemRead and MemWrite (00_scope.md R15). -/

namespace Sys2Proof.Machine

/-- `v[15:8]`, that is `v >> 8` (30_encoding.md R63). -/
def hiByte (v : Word16) : Byte := v.extractLsb' 8 8

/-- `v[7:0]`, that is `v & 0xFF` (30_encoding.md R63). -/
def loByte (v : Word16) : Byte := v.extractLsb' 0 8

/-- `hi ++ lo`: the byte at the lower offset is the more significant (20_memory.md R43). -/
def be16 (hi lo : Byte) : Word16 := hi ++ lo

/-- `MemRead(addr, 1)` on a frame (00_scope.md R15). -/
def memRead1 (f : Frame) (addr : Fin 10) : Byte := f[addr]

/-- `MemRead(addr, 2)`: `buf[addr] ++ buf[addr+1]` (00_scope.md R15). -/
def memRead2 (f : Frame) (addr : Fin 9) : Word16 := be16 (memRead1 f addr.castSucc) (memRead1 f addr.succ)

/-- `MemWrite(addr, 1, v)` on a frame (00_scope.md R15). -/
def memWrite1 (f : Frame) (addr : Fin 10) (v : Byte) : Frame := f.set addr v

/-- `MemWrite(addr, 2, v)`: `v[15:8]` at `addr`, `v[7:0]` at `addr+1` (00_scope.md R15, 30_encoding.md R64). -/
def memWrite2 (f : Frame) (addr : Fin 9) (v : Word16) : Frame :=
  memWrite1 (memWrite1 f addr.castSucc (hiByte v)) addr.succ (loByte v)

/-- A buffer of exactly ten bytes as a frame: no offset beyond the buffer can be read (43_decode.md R101). -/
def frameOfBuf (buf : List Byte) (h : buf.length = frameLen) : Frame := ⟨buf.toArray, by simpa using h⟩

/-- `enc_frame_bus[79:0]`: offset `i` at bits `[79-8i : 72-8i]` (10_state.md R28). -/
def frameBus (f : Frame) : BitVec 80 :=
  f[0] ++ f[1] ++ f[2] ++ f[3] ++ f[4] ++ f[5] ++ f[6] ++ f[7] ++ f[8] ++ f[9]

end Sys2Proof.Machine
end

