-- ==== Sys2Proof/Syntax.lean ====
section
/-! DEFINITION. The operations of the block: one constructor per row of spec/opcode_table.json. -/

namespace Sys2Proof

/-- The three operations (00_scope.md R2, 30_encoding.md R67), with the fields of their request words (R68). DECODE's
buffer does not fit in the word: it travels on the side input `dec_buf` (R68, 10_state.md R30), which is in State. -/
inductive Instr where
  /-- CHECKSUM `b3, ph, pl` (42_checksum.md R90). -/
  | checksum (b3 ph pl : Byte)
  /-- ENCODE `cmd, param` (41_encode.md R80). -/
  | encode (cmd : Byte) (param : Word16)
  /-- DECODE `avail` with the buffer on the side input (43_decode.md R100). -/
  | decode (avail : Bool)
  deriving DecidableEq, Repr

end Sys2Proof
end

