-- ==== Sys2Proof/WellFormed.lean ====
section
/-! DEFINITION. Which request words and which software parameters have a meaning (30_encoding.md R69, R70; 41_encode.md R85).
The operand fields of Instr are exactly as wide as the ports, so every Instr is well formed (R68, R71). -/

namespace Sys2Proof

/-- `op = req[25:24]` is one of the three operations, not the reserved 0b11 (30_encoding.md R67, R70). -/
def opAssigned (w : RequestWord) : Bool := w.extractLsb' 24 2 != 0b11#2

/-- The reserved bits [22:0] of a DE word are zero (30_encoding.md R68, R70); other words have no reserved bit. -/
def reservedBitsZero (w : RequestWord) : Bool := w.extractLsb' 24 2 != 0b10#2 || w.extractLsb' 0 23 == 0#23

/-- The words that select an operation (30_encoding.md R69). -/
def requestWellFormed (w : RequestWord) : Bool := opAssigned w && reservedBitsZero w

/-- A software caller's parameter that fits the 16-bit port (41_encode.md R85; 92 D17). -/
def paramInRange (p : Int) : Bool := decide (0 ≤ p) && decide (p < 0x10000)

/-- Every operation is well formed: each field is as wide as its port, and no operand value is reserved (30_encoding.md
R68, R71). -/
def Instr.wellFormed : Instr → Bool
  | .checksum _ _ _ => true
  | .encode _ _ => true
  | .decode _ => true

end Sys2Proof
end

