-- ==== Sys2Proof/Decode.lean ====
section
/-! DEFINITION. Reading a request word and writing one (30_encoding.md R67 to R70). The frame's own decoder is
Machine/FrameDecoder.lean. -/

namespace Sys2Proof

/-- Why a request word has no meaning: `ReservedRequest` (30_encoding.md R70), for op = 0b11 and for a DE word with a nonzero
reserved bit. -/
inductive DecodeError where
  | reservedRequest
  deriving DecidableEq, Repr

/-- The operation select `req[25:24]` (30_encoding.md R67). -/
def opField (w : RequestWord) : BitVec 2 := w.extractLsb' 24 2

/-- `b3` of a CK word, `cmd` of an EN word: `req[23:16]` (30_encoding.md R68). -/
def byteField2 (w : RequestWord) : Byte := w.extractLsb' 16 8

/-- `ph` of a CK word: `req[15:8]` (30_encoding.md R68). -/
def byteField1 (w : RequestWord) : Byte := w.extractLsb' 8 8

/-- `pl` of a CK word: `req[7:0]` (30_encoding.md R68). -/
def byteField0 (w : RequestWord) : Byte := w.extractLsb' 0 8

/-- `param` of an EN word: `req[15:0]` (30_encoding.md R68). -/
def paramField (w : RequestWord) : Word16 := w.extractLsb' 0 16

/-- `avail` of a DE word: bit 23 (30_encoding.md R68). -/
def availField (w : RequestWord) : Bool := w.getLsbD 23

/-- The reserved bits [22:0] of a DE word (30_encoding.md R68). -/
def reservedField (w : RequestWord) : BitVec 23 := w.extractLsb' 0 23

/-- The total reading of a request word (30_encoding.md R69). -/
def decode (w : RequestWord) : Except DecodeError Instr :=
  if opField w = 0b00#2 then .ok (.checksum (byteField2 w) (byteField1 w) (byteField0 w))
  else if opField w = 0b01#2 then .ok (.encode (byteField2 w) (paramField w))
  else if opField w = 0b10#2 then
    if reservedField w = 0#23 then .ok (.decode (availField w)) else .error .reservedRequest
  else .error .reservedRequest

/-- A field's value at its place in the request word, `lo` its lowest bit (30_encoding.md R68). -/
def fieldAt (n : Nat) (v : BitVec n) (lo : Nat) : RequestWord := v.setWidth 26 <<< lo

/-- The request word of an operation: its fields at the places of 30_encoding.md R68, every other bit zero. -/
def encode : Instr → RequestWord
  | .checksum b3 ph pl => fieldAt 2 0b00#2 24 ||| fieldAt 8 b3 16 ||| fieldAt 8 ph 8 ||| fieldAt 8 pl 0
  | .encode cmd param => fieldAt 2 0b01#2 24 ||| fieldAt 8 cmd 16 ||| fieldAt 16 param 0
  | .decode avail => fieldAt 2 0b10#2 24 ||| fieldAt 1 (BitVec.ofBool avail) 23

/-- The request word whose value is `w`. A number of more than 26 bits is no request word (30_encoding.md R67); it is read as
the reserved word 0x3000000, which is refused (DESIGN CHOICE, safe: log 18). -/
def requestOfNat (w : Nat) : RequestWord :=
  if w < 2 ^ 26 then BitVec.ofNat 26 w else 0x3000000#26

/-- The operation the decoder reads from a request whose bits are `w`, of which the table numbers the lower `nbits`. -/
def decodeTableWord (nbits w : Nat) : Option Instr :=
  match decode (requestOfNat (w % 2 ^ nbits)) with
  | .ok i => some i
  | .error _ => none

end Sys2Proof
end

