-- ==== Sys2Proof/Machine/Result.lean ====
section
/-! DEFINITION. The results an operation or a host sequence returns (60_exceptions.md R130 to R133; 10_state.md R32, R33). -/

namespace Sys2Proof.Machine

/-- The decoder's four results (10_state.md R32). Only PARSED has a payload: after a failure the payload ports carry no value
(10_state.md R33; 92 D5; log 5). -/
inductive DecResult where
  /-- PARSED: `type_byte`, `value_byte`, `param` (43_decode.md R105). -/
  | parsed (typeByte valueByte : Byte) (param : Word16)
  /-- FRAMING: wrong length or missing delimiters (60_exceptions.md R131). -/
  | framing
  /-- CHECKSUM_MISMATCH: framing holds, the checksum does not (60_exceptions.md R132). -/
  | checksumMismatch
  /-- NO_DATA: the transport reported none; not an error (60_exceptions.md R133). -/
  | noData
  deriving DecidableEq, Repr, Inhabited

/-- What the Feedback Poll returns: the (type_byte, value_byte) pair on PARSED, else the decoder's result
(44_host_compositions.md R122). -/
inductive PollResult where
  | pair (typeByte valueByte : Byte)
  | framing
  | checksumMismatch
  | noData
  deriving DecidableEq, Repr

/-- What the Status Query returns: the value byte on PARSED, else the decoder's result unchanged
(44_host_compositions.md R123; 92 D20). -/
inductive QueryResult where
  | status (valueByte : Byte)
  | framing
  | checksumMismatch
  | noData
  deriving DecidableEq, Repr

end Sys2Proof.Machine
end

