-- ==== Sys2Proof/Machine/Flags.lean ====
section
/-! DEFINITION. The block has no status flags (10_state.md R23), so no operation computes one. What a host reads of a DECODE is
the result tag and the payload ports of that operation (10_state.md R30, R32, R33): they are given here as views. -/

namespace Sys2Proof.Machine

/-- The code on `dec_res` (10_state.md R32; 92 D4). -/
def DecResult.code : DecResult → BitVec 2
  | .parsed _ _ _ => 0b00#2
  | .framing => 0b01#2
  | .checksumMismatch => 0b10#2
  | .noData => 0b11#2

/-- The port `dec_type`, which has a value on PARSED only (10_state.md R30, R33). -/
def DecResult.typePort : DecResult → Option Byte
  | .parsed t _ _ => some t
  | .framing => none
  | .checksumMismatch => none
  | .noData => none

/-- The port `dec_value`, which has a value on PARSED only (10_state.md R30, R33). -/
def DecResult.valuePort : DecResult → Option Byte
  | .parsed _ v _ => some v
  | .framing => none
  | .checksumMismatch => none
  | .noData => none

/-- The port `dec_param`, which has a value on PARSED only (10_state.md R30, R33). -/
def DecResult.paramPort : DecResult → Option Word16
  | .parsed _ _ p => some p
  | .framing => none
  | .checksumMismatch => none
  | .noData => none

/-- What POLL returns for a decoder result: the pair on PARSED, else the result (44_host_compositions.md R122). -/
def DecResult.toPoll : DecResult → PollResult
  | .parsed t v _ => .pair t v
  | .framing => .framing
  | .checksumMismatch => .checksumMismatch
  | .noData => .noData

/-- What QUERY returns for a decoder result: `v` on PARSED, else the result unchanged (44_host_compositions.md R123). -/
def DecResult.toQuery : DecResult → QueryResult
  | .parsed _ v _ => .status v
  | .framing => .framing
  | .checksumMismatch => .checksumMismatch
  | .noData => .noData

end Sys2Proof.Machine
end

