-- ==== Sys2Proof/Config.lean ====
section
/-! DEFINITION. What the spec leaves open (00_scope.md R7; 93_implementation_defined.md I2, I6, I8). Each is a constant with
no body: no proof can see its value. -/

namespace Sys2Proof

/-- `QUERY_STATUS_CMD`, the command code of the status-query frame: OPEN (00_scope.md R7; 92 D18; log 8). -/
opaque Config.queryStatusCmd : Byte

/-- `STATUS_WAIT`, the length of the Status Query's bounded wait: OPEN, host-owned, no unit (00_scope.md R7; 92 D19; log 7). -/
opaque Config.statusWait : Nat

/-- The transport's availability report at a given draw, where the environment's list gives none: `any value` (93 I6; log 6). -/
opaque Config.dataAvailable : Nat → Bool

/-- The bytes a transport `read` has at a given draw, where the environment's list gives none: `any value` (93 I6; log 6). -/
opaque Config.readBytes : Nat → List Byte

/-- `enc_frame` before the first ENCODE: `any value` (10_state.md R34; 93 I2; log 1). -/
opaque Config.undrivenFrame : Frame

/-- `ck_sum` before the first CHECKSUM: `any value` (10_state.md R34; 93 I2; log 1). -/
opaque Config.undrivenSum : Word16

/-- `dec_res` and its payload before the first DECODE: `any value` (10_state.md R34; 93 I2; log 1). -/
opaque Config.undrivenResult : Machine.DecResult

end Sys2Proof
end

