-- ==== Sys2Proof/Machine/State.lean ====
section
/-! DEFINITION. The state: the block's ports, and the host and transport around it (10_state.md R20, R28 to R34;
44_host_compositions.md R121). The block itself retains nothing (10_state.md R21 to R27). -/

namespace Sys2Proof.Machine

/-- Which result the host takes from the ports into its variables, and in which form. -/
inductive Take where
  /-- the checksum on `ck_sum` -/
  | sum
  /-- the frame on `enc_frame` -/
  | frame
  /-- the decoder's result -/
  | result
  /-- the decoder's result as POLL returns it (44_host_compositions.md R122) -/
  | poll
  /-- the decoder's result as QUERY returns it (44_host_compositions.md R123) -/
  | status
  deriving DecidableEq, Repr

/-- A value the host holds (95_test_vectors.md section 3). -/
inductive HostValue where
  | sum (v : Word16)
  | frame (f : Frame)
  | result (r : DecResult)
  | poll (r : PollResult)
  | status (r : QueryResult)
  deriving DecidableEq, Repr

/-- One act of the host. A host program is a list of them (10_state.md R22; 92 D9). -/
inductive HostStep where
  /-- issue an operation of the block by its request word (30_encoding.md R67) -/
  | request (w : RequestWord)
  /-- call ENCODE from software with an integer parameter (41_encode.md R85) -/
  | callEncode (cmd : Byte) (param : Int)
  /-- drive the side input `dec_buf` (10_state.md R30) -/
  | drive (buf : List Byte)
  /-- hand the frame on `enc_frame` to one `write` call (44_host_compositions.md R120) -/
  | write
  /-- the bounded wait (44_host_compositions.md R121, R123) -/
  | wait (duration : Nat)
  /-- ask `data_available()`, then continue as R122 says -/
  | checkAvail
  /-- `read(n)`, then hand the bytes to DECODE with `avail` = 1 (44_host_compositions.md R122) -/
  | read (n : Nat)
  /-- take a result from the ports into the host's variables -/
  | take (what : Take)
  deriving DecidableEq, Repr

/-- The state of the system. -/
structure State where
  /-- output port `enc_frame` (10_state.md R28) -/
  encFrame : Frame
  /-- output port `ck_sum` (10_state.md R29) -/
  ckSum : Word16
  /-- output ports `dec_res`, `dec_type`, `dec_value`, `dec_param` (10_state.md R30, R32, R33) -/
  decRes : DecResult
  /-- side input `dec_buf`, whose length is `dec_len` (10_state.md R30). The host holds it for the call
  (70_reset_and_hazards.md R157, 92 D25); that it presents the last driven bytes after the call too, until the host drives it
  anew, is DESIGN CHOICE, unsafe (log 28) -/
  decBuf : List Byte
  /-- the host's steps still to perform, next first (10_state.md R22) -/
  pending : List HostStep
  /-- the values the host holds, oldest first -/
  kept : List HostValue
  /-- the bytes of the transport's `write` calls, in issue order (20_memory.md R50) -/
  written : List (List Byte)
  /-- the transport's coming answers to `data_available()`, next first (44_host_compositions.md R121; 93 I6) -/
  availReports : List Bool
  /-- the bytes the transport's coming `read` calls have, next first (44_host_compositions.md R121; 93 I6) -/
  readData : List (List Byte)
  /-- the model's own: how many free values of the transport have been drawn (log 6) -/
  draws : Nat
  deriving DecidableEq, Repr

/-- No operation faults and none gets stuck (60_exceptions.md R135), and the spec names no address or access that does not
exist for an operation to reach (10_state.md R27, 43_decode.md R101): there is no fault, so this type has no constructor and
nobody raises one. -/
inductive Fault where
  deriving DecidableEq, Repr

/-- The meanings the model withholds. -/
inductive Refusal where
  /-- raised by an arm of exec for an operation with no meaning yet; no arm does so; safe -/
  | notModelled (mnemonic : String)
  /-- `ReservedRequest` (30_encoding.md R70): raised by a host step that issues a request word with op = 0b11 or a DE word with a
  nonzero reserved bit; safe: nothing is proved of such a word -/
  | reservedRequest
  /-- `ParamOutOfRange` (41_encode.md R85): raised by a software call of ENCODE whose parameter does not fit the 16-bit port; safe:
  nothing is proved of such a call -/
  | paramOutOfRange
  deriving DecidableEq, Repr

/-- The machine right after reset (10_state.md R34, 70_reset_and_hazards.md R150): nothing is retained, the output ports hold any
value (log 1), and the host has issued nothing (log 3). -/
def State.reset : State where
  encFrame := Config.undrivenFrame
  ckSum := Config.undrivenSum
  decRes := Config.undrivenResult
  decBuf := []
  pending := []
  kept := []
  written := []
  availReports := []
  readData := []
  draws := 0

end Sys2Proof.Machine
end

