-- ==== Sys2Proof/Machine/Ops.lean ====
section
/-! DEFINITION. The named operations over the state: driving a port, the host's list of steps, and the transport's contract
(44_host_compositions.md R121). The block has no memory and no exception entry (10_state.md R27, 60_exceptions.md R138), so
there is no operation for either. -/

namespace Sys2Proof.Machine

/-- `enc_frame <- f` (41_encode.md R80). -/
def State.driveFrame (s : State) (f : Frame) : State := { s with encFrame := f }

/-- `ck_sum <- v` (42_checksum.md R90). -/
def State.driveSum (s : State) (v : Word16) : State := { s with ckSum := v }

/-- `dec_res`, and on PARSED the payload ports, `<- r` (43_decode.md R100). -/
def State.driveResult (s : State) (r : DecResult) : State := { s with decRes := r }

/-- The host drives `dec_buf` and with it `dec_len` (10_state.md R30). The bytes stay until it drives them anew (DESIGN CHOICE,
unsafe: log 28). -/
def State.driveBuf (s : State) (buf : List Byte) : State := { s with decBuf := buf }

/-- The host's steps still to perform become `p`. -/
def State.setPending (s : State) (p : List HostStep) : State := { s with pending := p }

/-- The host performs `p` next, before what it has pending. -/
def State.performNext (s : State) (p : List HostStep) : State := s.setPending (p ++ s.pending)

/-- The host keeps a value. -/
def State.keep (s : State) (v : HostValue) : State := { s with kept := s.kept ++ [v] }

/-- The transport's `write(bytes)` (44_host_compositions.md R121). -/
def State.writeBytes (s : State) (bytes : List Byte) : State := { s with written := s.written ++ [bytes] }

/-- What `data_available()` answers now: the environment's next report, a free value where it lists none (93 I6; log 6). -/
def State.availReport (s : State) : Bool :=
  match s.availReports with
  | b :: _ => b
  | [] => Config.dataAvailable s.draws

/-- The transport after it has answered `data_available()`. -/
def State.afterReport (s : State) : State :=
  { s with availReports := s.availReports.tail, draws := if s.availReports.isEmpty then s.draws + 1 else s.draws }

/-- What `read(n)` returns now: at most `n` bytes, otherwise any (44_host_compositions.md R121; 93 I6; log 6). -/
def State.readResult (s : State) (n : Nat) : List Byte :=
  match s.readData with
  | bs :: _ => bs.take n
  | [] => (Config.readBytes s.draws).take n

/-- The transport after a `read`. -/
def State.afterRead (s : State) : State :=
  { s with readData := s.readData.tail, draws := if s.readData.isEmpty then s.draws + 1 else s.draws }

/-- The value the host takes from the ports (44_host_compositions.md R122, R123). -/
def State.takeValue (s : State) : Take → HostValue
  | .sum => .sum s.ckSum
  | .frame => .frame s.encFrame
  | .result => .result s.decRes
  | .poll => .poll s.decRes.toPoll
  | .status => .status s.decRes.toQuery

end Sys2Proof.Machine
end

