-- ==== Sys2Proof/Machine/ChecksumUnit.lean ====
section
/-! DEFINITION. checksum_unit (42_checksum.md): one function for the encode and the decode path (00_scope.md R3). -/

namespace Sys2Proof.Machine

/-- `S = VERSION + LENGTH + b3 + FEEDBACK_FLAG + ph + pl`, the mathematical sum (42_checksum.md R90, R92). -/
def checksumSum (b3 ph pl : Byte) : Nat :=
  versionByte.toNat + lengthByte.toNat + b3.toNat + feedbackFlag.toNat + ph.toNat + pl.toNat

/-- `(-S) mod 2^16` (42_checksum.md R90, R93). -/
def checksum (b3 ph pl : Byte) : Word16 := BitVec.ofInt 16 (-(checksumSum b3 ph pl : Int))

/-- CHECKSUM (42_checksum.md R90): it drives `ck_sum` and nothing else. -/
def execChecksum (b3 ph pl : Byte) (s : State) : Host.Outcome State Fault Refusal :=
  .next (s.driveSum (checksum b3 ph pl))

end Sys2Proof.Machine
end

