-- ==== Sys2Proof/Machine/FrameDecoder.lean ====
section
/-! DEFINITION. frame_decoder (43_decode.md). -/

namespace Sys2Proof.Machine

/-- The checks of a ten-byte buffer, delimiters before checksum (43_decode.md R102 to R105, R107). Offsets 1, 2 and 4 are never
read (R108, R109; 90_conflicts.md C2). -/
def checkFrame (f : Frame) : DecResult :=
  if memRead1 f 0 ≠ startByte then .framing
  else if memRead1 f 9 ≠ endByte then .framing
  else if checksum (memRead1 f 3) (memRead1 f 5) (memRead1 f 6) ≠ memRead2 f 7 then .checksumMismatch
  else .parsed (memRead1 f 3) (memRead1 f 6) (memRead2 f 5)

/-- The decoder's result: availability, then length, then the checks of the frame (43_decode.md R100, R107). -/
def decodeFrame (avail : Bool) (buf : List Byte) : DecResult :=
  if avail = false then .noData
  else if h : buf.length = frameLen then checkFrame (frameOfBuf buf h)
  else .framing

/-- DECODE (43_decode.md R100): it reads `dec_avail` and the side input, drives the result ports and changes nothing else
(R110). With no new drive since an earlier operation the side input is the last driven one (DESIGN CHOICE, unsafe: log 28). -/
def execDecode (avail : Bool) (s : State) : Host.Outcome State Fault Refusal :=
  .next (s.driveResult (decodeFrame avail s.decBuf))

end Sys2Proof.Machine
end

