-- ==== Sys2Proof/Machine/FrameEncoder.lean ====
section
/-! DEFINITION. frame_encoder (41_encode.md). -/

namespace Sys2Proof.Machine

/-- The ten writes of 41_encode.md R80 into a fresh output frame. All ten offsets are written, so what `fresh` holds cannot be
seen (R81). -/
def buildFrame (fresh : Frame) (cmd : Byte) (param : Word16) : Frame :=
  let ph := hiByte param
  let pl := loByte param
  let chk := checksum cmd ph pl
  let f0 := memWrite1 fresh 0 startByte
  let f1 := memWrite1 f0 1 versionByte
  let f2 := memWrite1 f1 2 lengthByte
  let f3 := memWrite1 f2 3 cmd
  let f4 := memWrite1 f3 4 feedbackFlag
  let f5 := memWrite1 f4 5 ph
  let f6 := memWrite1 f5 6 pl
  let f7 := memWrite2 f6 7 chk
  memWrite1 f7 9 endByte

/-- The outbound frame of a command and a parameter (30_encoding.md R60), built in a buffer of zeros. -/
def frameOf (cmd : Byte) (param : Word16) : Frame := buildFrame (Vector.replicate 10 0#8) cmd param

/-- ENCODE (41_encode.md R80): it drives `enc_frame` and nothing else; it never calls the transport (44_host_compositions.md
R120). -/
def execEncode (cmd : Byte) (param : Word16) (s : State) : Host.Outcome State Fault Refusal :=
  .next (s.driveFrame (frameOf cmd param))

end Sys2Proof.Machine
end

