-- ==== Sys2Proof/Machine/Dispatch.lean ====
section
/-! DEFINITION. One arm per constructor of Instr. -/

namespace Sys2Proof.Machine

def exec (i : Instr) (s : State) : Host.Outcome State Fault Refusal :=
  match i with
  | .checksum b3 ph pl => Sys2Proof.Machine.execChecksum b3 ph pl s
  | .encode cmd param => Sys2Proof.Machine.execEncode cmd param s
  | .decode avail => Sys2Proof.Machine.execDecode avail s

end Sys2Proof.Machine
end

