-- ==== Sys2Proof/Machine/HostSequences.lean ====
section
/-! DEFINITION. What each act of the host does (44_host_compositions.md). The host's next act is already taken off `pending`. -/

namespace Sys2Proof.Machine

/-- Issue the operation of a request word: the block performs it in one step (20_memory.md R47), or the word is refused
(30_encoding.md R69, R70). -/
def hostRequest (w : RequestWord) (s : State) : Host.Outcome State Fault Refusal :=
  match decode w with
  | .ok i => exec i s
  | .error .reservedRequest => .refused .reservedRequest

/-- A software call of ENCODE: a parameter in 0..0xFFFF is issued as an EN word next, any other is refused and never truncated
(41_encode.md R85; 92 D17). -/
def hostCallEncode (cmd : Byte) (param : Int) (s : State) : Host.Outcome State Fault Refusal :=
  if paramInRange param then .next (s.performNext [.request (encode (.encode cmd (BitVec.ofInt 16 param)))])
  else .refused .paramOutOfRange

/-- Hand the ten bytes on `enc_frame` to one `write` call, offset 0 first (44_host_compositions.md R120, 20_memory.md R41). -/
def hostWrite (s : State) : State := s.writeBytes s.encFrame.toList

/-- The acts that follow the answer of `data_available()`: with no data `DECODE(0, [])` and no read, else one `read(10)`
(44_host_compositions.md R122, R123; 70_reset_and_hazards.md R154). -/
def afterAvail : Bool → List HostStep
  | false => [.drive [], .request (encode (.decode false))]
  | true => [.read frameLen]

/-- Ask `data_available()` and go on as its answer says. -/
def hostCheckAvail (s : State) : State := s.afterReport.performNext (afterAvail s.availReport)

/-- `read(n)`, then `DECODE(1, buf)` with the bytes it returned, unmodified (44_host_compositions.md R122, R124). -/
def hostRead (n : Nat) (s : State) : State :=
  s.afterRead.performNext [.drive (s.readResult n), .request (encode (.decode true))]

/-- One act of the host. The wait has no time and no effect on the state (70_reset_and_hazards.md R159; log 7). -/
def runHostStep (h : HostStep) (s : State) : Host.Outcome State Fault Refusal :=
  match h with
  | .request w => hostRequest w s
  | .callEncode cmd param => hostCallEncode cmd param s
  | .drive buf => .next (s.driveBuf buf)
  | .write => .next (hostWrite s)
  | .wait _ => .next s
  | .checkAvail => .next (hostCheckAvail s)
  | .read n => .next (hostRead n s)
  | .take what => .next (s.keep (s.takeValue what))

/-- The host performs its next act. With nothing pending the block does not act, and nothing changes (10_state.md R20; DESIGN
CHOICE: log 3). -/
def hostStep (s : State) : Host.Outcome State Fault Refusal :=
  match s.pending with
  | [] => .next s
  | h :: rest => runHostStep h (s.setPending rest)

/-- The host's next act is to issue the request word `w` (log 3, log 18). -/
def placeRequest (s : State) (nbits w : Nat) : State :=
  s.performNext [.request (requestOfNat (w % 2 ^ nbits))]

end Sys2Proof.Machine
end

