-- ==== Sys2Proof/Machine/Step.lean ====
section
/-! DEFINITION. One step of the system: the host's next act (10_state.md R20, R22). -/

namespace Sys2Proof.Machine

/-- One step. -/
def step (s : State) : Host.Outcome State Fault Refusal := hostStep s

/-- `s` with the request word `w` as the host's next act. -/
def State.withFetchWord (s : State) (nbits w : Nat) : State := placeRequest s nbits w

end Sys2Proof.Machine
end

