-- ==== Sys2Proof/Machine/Assembler.lean ====
section
/-! DEFINITION. Assembly lines, pseudo-operations and host compositions as the host's acts (30_encoding.md R74, R75;
44_host_compositions.md R120, R122, R123). -/

namespace Sys2Proof.Machine

/-- A line of a host program. -/
inductive AsmLine where
  /-- `CHECKSUM b3, ph, pl` (30_encoding.md R74) -/
  | checksum (b3 ph pl : Byte)
  /-- `ENCODE cmd, param` (30_encoding.md R74) -/
  | encode (cmd : Byte) (param : Int)
  /-- `DECODE avail, [b0, b1, ...]` (30_encoding.md R74) -/
  | decode (avail : Bool) (buf : List Byte)
  /-- `ENCODE cmd`, the default parameter (30_encoding.md R75, 41_encode.md R84) -/
  | encodeDefault (cmd : Byte)
  /-- `SETVOL v` (30_encoding.md R75) -/
  | setvol (v : Int)
  /-- `PLAYFF f, t` (30_encoding.md R75) -/
  | playff (f t : Byte)
  /-- Send: one ENCODE plus one write (44_host_compositions.md R120) -/
  | send (cmd : Byte) (param : Int)
  /-- `POLL`, the Feedback Poll (44_host_compositions.md R122) -/
  | poll
  /-- `QUERY`, the Status Query (44_host_compositions.md R123) -/
  | query
  /-- a request word given as it stands (95_test_vectors.md program D) -/
  | raw (w : RequestWord)
  deriving DecidableEq, Repr

/-- ENCODE called by the host, its frame kept (30_encoding.md R74). -/
def encodeSteps (cmd : Byte) (param : Int) : List HostStep := [.callEncode cmd param, .take .frame]

/-- Send (44_host_compositions.md R120). -/
def sendSteps (cmd : Byte) (param : Int) : List HostStep := [.callEncode cmd param, .write]

/-- The Feedback Poll (44_host_compositions.md R122). -/
def pollSteps : List HostStep := [.checkAvail, .take .poll]

/-- The Status Query: send, bounded wait, one read attempt, decode (44_host_compositions.md R123). -/
def querySteps (cmd : Byte) (wait : Nat) : List HostStep :=
  sendSteps cmd 0 ++ [.wait wait, .checkAvail, .take .status]

/-- `(f << 8) | t` (30_encoding.md R75). -/
def folderTrack (f t : Byte) : Int := ((f.toNat <<< 8) ||| t.toNat : Nat)

/-- The host's acts for a line. -/
def assemble : AsmLine → List HostStep
  | .checksum b3 ph pl => [.request (encode (.checksum b3 ph pl)), .take .sum]
  | .encode cmd param => encodeSteps cmd param
  | .decode avail buf => [.drive buf, .request (encode (.decode avail)), .take .result]
  | .encodeDefault cmd => encodeSteps cmd 0
  | .setvol v => encodeSteps cmdSetVolume v
  | .playff f t => encodeSteps cmdPlayFolderFile (folderTrack f t)
  | .send cmd param => sendSteps cmd param
  | .poll => pollSteps
  | .query => querySteps Config.queryStatusCmd Config.statusWait
  | .raw w => [.request w]

/-- A host program's acts, its lines in order (10_state.md R22, 30_encoding.md R74). -/
def assembleAll (lines : List AsmLine) : List HostStep := lines.flatMap assemble

end Sys2Proof.Machine
end

