-- ==== Sys2Proof/Safety.lean ====
section
/-! DEFINITION. What a safe run is: the transport is only ever handed frames that ENCODE produced (44_host_compositions.md R120,
41_encode.md R82), under the host's duty to keep one send sequence at a time (20_memory.md R54). -/

namespace Sys2Proof.Machine

/-- `k` steps, ending at the first refusal. -/
def runSteps : Nat → State → Host.Outcome State Fault Refusal
  | 0, s => .next s
  | k + 1, s =>
    match step s with
    | .next t => runSteps k t
    | .fault r => .fault r
    | .refused r => .refused r

/-- The port `enc_frame` holds a frame that ENCODE produced. -/
def EncReady (s : State) : Prop := ∃ cmd param, s.encFrame = frameOf cmd param

/-- Every `write` call carried the ten bytes of a frame that ENCODE produced. -/
def WroteFrames (s : State) : Prop := ∀ bytes ∈ s.written, ∃ cmd param, bytes = (frameOf cmd param).toList

/-- The request word selects ENCODE (30_encoding.md R67). -/
def selectsEncode (w : RequestWord) : Bool :=
  match decode w with
  | .ok (.encode _ _) => true
  | .ok (.checksum _ _ _) => false
  | .ok (.decode _) => false
  | .error _ => false

/-- Every write of the host's steps has an ENCODE before it, `ready` saying whether one has been done already. -/
def writesGuarded (ready : Bool) : List HostStep → Bool
  | [] => true
  | .request w :: rest => writesGuarded (ready || selectsEncode w) rest
  | .callEncode _ _ :: rest => writesGuarded true rest
  | .drive _ :: rest => writesGuarded ready rest
  | .write :: rest => ready && writesGuarded ready rest
  | .wait _ :: rest => writesGuarded ready rest
  | .checkAvail :: rest => writesGuarded ready rest
  | .read _ :: rest => writesGuarded ready rest
  | .take _ :: rest => writesGuarded ready rest

/-- The invariant: what was written is frames, and no pending write comes before an ENCODE. -/
def WireInv (s : State) : Prop :=
  WroteFrames s ∧ ∃ ready : Bool, (ready = true → EncReady s) ∧ writesGuarded ready s.pending = true

/-- The operation leaves everything but its own output port as it was (10_state.md R35). -/
def onlyOwnPort (i : Instr) (s t : State) : Prop :=
  match i with
  | .checksum _ _ _ => t = s.driveSum t.ckSum
  | .encode _ _ => t = s.driveFrame t.encFrame
  | .decode _ => t = s.driveResult t.decRes

/-- Two states agree on the operation's own output port. -/
def sameOwnOutput (i : Instr) (t u : State) : Prop :=
  match i with
  | .checksum _ _ _ => t.ckSum = u.ckSum
  | .encode _ _ => t.encFrame = u.encFrame
  | .decode _ => t.decRes = u.decRes

end Sys2Proof.Machine
end

