-- ==== Sys2Proof/Certificates/Slice0/Obligations.lean ====
section
/-! DEFINITION. The statements for the provers. -/

open Sys2Proof Sys2Proof.Machine

/-- For every operation, with every operand at every value its field admits, decoding the request word that encode
gives is that operation again: no bit of any field of R68 is dropped. Derived from 30_encoding.md R67, R68, R69. -/
def Obligations.DecodeOfEncodeIsInstr : Prop :=
  ∀ i : Instr, i.wellFormed = true → decode (encode i) = .ok i

/-- If a request word decodes to an operation then encoding that operation gives the same word: each operation has
exactly one request word, and no bit of an accepted word is ignored. Derived from 30_encoding.md R67, R68, R69, R70.
-/
def Obligations.EncodeOfDecodeIsWord : Prop :=
  ∀ (w : RequestWord) (i : Instr), decode w = .ok i → encode i = w

/-- For every 26-bit word: op = 0b00 is CHECKSUM of the fields [23:16], [15:8], [7:0]; op = 0b01 is ENCODE of
[23:16] and [15:0]; op = 0b10 with bits [22:0] zero is DECODE with avail = bit 23; op = 0b11, and op = 0b10 with a
nonzero reserved bit, are refused. (The request word is the spec's own choice (92 D3, log 21).) Derived from
30_encoding.md R69. -/
def Obligations.RequestWordDecodingIsTotal : Prop :=
  ∀ w : RequestWord,
    (w.extractLsb' 24 2 = 0b00#2 →
      decode w = .ok (.checksum (w.extractLsb' 16 8) (w.extractLsb' 8 8) (w.extractLsb' 0 8))) ∧
    (w.extractLsb' 24 2 = 0b01#2 → decode w = .ok (.encode (w.extractLsb' 16 8) (w.extractLsb' 0 16))) ∧
    (w.extractLsb' 24 2 = 0b10#2 ∧ w.extractLsb' 0 23 = 0#23 → decode w = .ok (.decode (w.getLsbD 23))) ∧
    (w.extractLsb' 24 2 = 0b11#2 → decode w = .error .reservedRequest) ∧
    (w.extractLsb' 24 2 = 0b10#2 ∧ w.extractLsb' 0 23 ≠ 0#23 → decode w = .error .reservedRequest)

/-- Six request words of programs A to D, written out in the spec, decode to the operations of their lines, and the
two reserved ones are refused. Derived from 30_encoding.md R68; 95_test_vectors.md programs A, B, C, D. -/
def Obligations.WordsOfTheSpecProgramsDecode : Prop :=
  decode 0x0106001E#26 = .ok (.encode 0x06#8 0x001E#16) ∧
    decode 0x0006001E#26 = .ok (.checksum 0x06#8 0x00#8 0x1E#8) ∧
    decode 0x2800000#26 = .ok (.decode true) ∧
    decode 0x2000000#26 = .ok (.decode false) ∧
    decode 0x10F010A#26 = .ok (.encode 0x0F#8 0x010A#16) ∧
    decode 0x0FFFFFD#26 = .ok (.checksum 0xFF#8 0xFF#8 0xFD#8) ∧
    decode 0x3000000#26 = .error .reservedRequest ∧
    decode 0x2810000#26 = .error .reservedRequest

/-- When the host's next act is to issue a word that decodes to i, one step is exec of i on the state whose list of
pending acts has lost that one; nothing else is done around exec. Derived from 10_state.md R22; 20_memory.md R47. -/
def Obligations.StepRunsTheIssuedOperation : Prop :=
  ∀ (s : State) (w : RequestWord) (i : Instr) (rest : List HostStep),
    s.pending = .request w :: rest → decode w = .ok i → step s = exec i { s with pending := rest }

/-- When the host's next act issues a word with op = 0b11, or a DE word with any of bits [22:0] nonzero, the step is
refused by the name ReservedRequest. Derived from 30_encoding.md R70; 60_exceptions.md R135. -/
def Obligations.ReservedRequestIsRefused : Prop :=
  ∀ (s : State) (w : RequestWord) (rest : List HostStep), s.pending = .request w :: rest →
    (w.extractLsb' 24 2 = 0b11#2 ∨ (w.extractLsb' 24 2 = 0b10#2 ∧ w.extractLsb' 0 23 ≠ 0#23)) →
    step s = .refused .reservedRequest

/-- For every state and operation, placing the operation's request word (withFetchWord, the host's next act: the
model's choice, log 3) makes the very next step exec of that operation on the state as it was. Derived from
10_state.md R22; 30_encoding.md R67, R68. -/
def Obligations.PlacedRequestRunsNext : Prop :=
  ∀ (s : State) (i : Instr), step (s.withFetchWord 32 (encode i).toNat) = exec i s

/-- The block acts only when the host issues an operation; with no act pending a step leaves the whole state as it
was. That the machine goes on so, and does not stop, is the model's choice (log 3). Derived from 10_state.md R20. -/
def Obligations.NothingIssuedNothingChanges : Prop :=
  ∀ s : State, s.pending = [] → step s = .next s

/-- For every state and operands CHECKSUM answers the next state that differs from the state only in ck_sum, whose
value as an integer is (-(0xFF + 0x06 + b3 + 0x00 + ph + pl)) mod 2^16; the word with op = 0b00 selects it with its
three fields (format CK, the spec's own choice: log 21); the worked example gives 0xFED7. Derived from
42_checksum.md R90; 30_encoding.md R67, R68; log 21. -/
def Obligations.ChecksumDrivesItsResult : Prop :=
  (∀ (s : State) (b3 ph pl : Byte), ∃ chk : Word16,
      exec (.checksum b3 ph pl) s = .next { s with ckSum := chk } ∧
      (chk.toNat : Int) = (-((0xFF + 0x06 + b3.toNat + 0x00 + ph.toNat + pl.toNat : Nat) : Int)) % 2 ^ 16) ∧
    (∀ w : RequestWord, w.extractLsb' 24 2 = 0b00#2 →
      decode w = .ok (.checksum (w.extractLsb' 16 8) (w.extractLsb' 8 8) (w.extractLsb' 0 8))) ∧
    (∀ s : State, exec (.checksum 0x06#8 0x00#8 0x1E#8) s = .next { s with ckSum := 0xFED7#16 })

/-- With S = 0x105 + b3 + ph + pl: S is at least 0x105, at most 0x402 and fits in 11 bits; the checksum is 0x10000 -
S, lies in 0xFBFE..0xFEFB and is never 0; its high byte is 0xFE, 0xFD, 0xFC or 0xFB on the four ranges of S that the
rule gives. (R91 is the spec's own inference ([derived: from rule R90]).) Derived from 42_checksum.md R91. -/
def Obligations.ChecksumRange : Prop :=
  ∀ b3 ph pl : Byte, let s := 0xFF + 0x06 + b3.toNat + 0x00 + ph.toNat + pl.toNat
    let chk := checksum b3 ph pl
    0x105 ≤ s ∧ s ≤ 0x402 ∧ s < 2 ^ 11 ∧ chk.toNat = 0x10000 - s ∧ 0xFBFE ≤ chk.toNat ∧ chk.toNat ≤ 0xFEFB ∧
    chk ≠ 0x0000#16 ∧
    (0x105 ≤ s ∧ s ≤ 0x200 → chk.extractLsb' 8 8 = 0xFE#8) ∧
    (0x201 ≤ s ∧ s ≤ 0x300 → chk.extractLsb' 8 8 = 0xFD#8) ∧
    (0x301 ≤ s ∧ s ≤ 0x400 → chk.extractLsb' 8 8 = 0xFC#8) ∧
    (0x401 ≤ s ∧ s ≤ 0x402 → chk.extractLsb' 8 8 = 0xFB#8)

/-- For every operands, with S the mathematical sum, which fits an 11-bit adder: the checksum is the integer (-S)
mod 2^16, the 16-bit two's-complement negation of S, 0x10000 - S, and the low 16 bits of the 32-bit signed value of
-S masked with 0xFFFF. (R92 is the spec's own inference ([derived: from rule R90 and rule R91]).) Derived from
42_checksum.md R92. -/
def Obligations.ChecksumWidthsAgree : Prop :=
  ∀ b3 ph pl : Byte, let s := 0xFF + 0x06 + b3.toNat + 0x00 + ph.toNat + pl.toNat
    let chk := checksum b3 ph pl
    s < 2 ^ 11 ∧
    (chk.toNat : Int) = (-(s : Int)) % 2 ^ 16 ∧
    chk = ~~~(BitVec.ofNat 16 s) + 1#16 ∧
    chk.toNat = 0x10000 - s ∧
    chk = (BitVec.ofInt 32 (-(s : Int)) &&& 0xFFFF#32).setWidth 16

/-- S plus the checksum, taken whole or as its two bytes, is 0 mod 2^16; operand triples with equal sums,
permutations among them, have equal checksums, so that swapped bytes or a +1 cancelled by a -1 go unseen; the all-
zero, all-ones and high-byte boundary values; with ph = pl = 0xFF the carry out of the low byte is kept. (R96 is the
spec's own inference ([derived: from rule R90 and rule R92]).) Derived from 42_checksum.md R96. -/
def Obligations.ChecksumLaws : Prop :=
  (∀ b3 ph pl : Byte, let s := 0xFF + 0x06 + b3.toNat + 0x00 + ph.toNat + pl.toNat
      let chk := checksum b3 ph pl
      (s + chk.toNat) % 2 ^ 16 = 0 ∧
      (s + ((chk.extractLsb' 8 8).toNat <<< 8) + (chk.extractLsb' 0 8).toNat) % 2 ^ 16 = 0) ∧
    (∀ a b c a' b' c' : Byte, a.toNat + b.toNat + c.toNat = a'.toNat + b'.toNat + c'.toNat →
      checksum a b c = checksum a' b' c') ∧
    (∀ a b c : Byte, checksum a c b = checksum a b c ∧ checksum b a c = checksum a b c ∧
      checksum b c a = checksum a b c ∧ checksum c a b = checksum a b c ∧ checksum c b a = checksum a b c) ∧
    checksum 0x01#8 0x00#8 0x00#8 = checksum 0x00#8 0x00#8 0x01#8 ∧
    checksum 0x00#8 0x00#8 0x00#8 = 0xFEFB#16 ∧
    checksum 0xFF#8 0xFF#8 0xFF#8 = 0xFBFE#16 ∧
    (∀ b3 ph pl : Byte, b3.toNat + ph.toNat + pl.toNat = 0xFB → checksum b3 ph pl = 0xFE00#16) ∧
    (∀ b3 ph pl : Byte, b3.toNat + ph.toNat + pl.toNat = 0xFC → checksum b3 ph pl = 0xFDFF#16) ∧
    (∀ b3 : Byte, (checksum b3 0xFF#8 0xFF#8).toNat = 0x10000 - (0x105 + b3.toNat + 0x1FE))

/-- For every state, command and parameter ENCODE answers the next state that differs only in enc_frame, which is 7E
FF 06 cmd 00 param[15:8] param[7:0] and the CHECKSUM of (cmd, param[15:8], param[7:0]) big-endian, then EF; the word
with op = 0b01 selects it (format EN, the spec's own choice: log 21); the worked example. (That ck_sum is unchanged
although the unit runs inside is the model's reading of R35, R46 and R48: log 4.) Derived from 41_encode.md R80;
30_encoding.md R67, R68; 10_state.md R35; 20_memory.md R46, R48; log 4; log 21. -/
def Obligations.EncodeDrivesTheFrame : Prop :=
  (∀ (s : State) (cmd : Byte) (param : Word16), ∃ f : Frame,
      exec (.encode cmd param) s = .next { s with encFrame := f } ∧
      f.toList = [0x7E#8, 0xFF#8, 0x06#8, cmd, 0x00#8, param.extractLsb' 8 8, param.extractLsb' 0 8,
        (checksum cmd (param.extractLsb' 8 8) (param.extractLsb' 0 8)).extractLsb' 8 8,
        (checksum cmd (param.extractLsb' 8 8) (param.extractLsb' 0 8)).extractLsb' 0 8, 0xEF#8]) ∧
    (∀ w : RequestWord, w.extractLsb' 24 2 = 0b01#2 →
      decode w = .ok (.encode (w.extractLsb' 16 8) (w.extractLsb' 0 16))) ∧
    (∀ s : State, exec (.encode 0x06#8 0x001E#16) s = .next { s with encFrame :=
      #v[0x7E#8, 0xFF#8, 0x06#8, 0x06#8, 0x00#8, 0x00#8, 0x1E#8, 0xFE#8, 0xD7#8, 0xEF#8] })

/-- For every state, command and parameter ENCODE answers a next state whose enc_frame has 7E, FF, 06, 00 and EF at
offsets 0, 1, 2, 4 and 9, one of FB, FC, FD, FE at offset 7, a checksum that is not 0x0000, and at offset 3 the
command itself, the delimiter values 7E and EF included. (R86 is the spec's own inference ([derived: from rule R80
and 42_checksum.md rule R91]).) Derived from 41_encode.md R86. -/
def Obligations.EncodedFrameFixedParts : Prop :=
  ∀ (s : State) (cmd : Byte) (param : Word16), ∃ t : State, exec (.encode cmd param) s = .next t ∧
    t.encFrame[0] = 0x7E#8 ∧ t.encFrame[1] = 0xFF#8 ∧ t.encFrame[2] = 0x06#8 ∧ t.encFrame[4] = 0x00#8 ∧
    t.encFrame[9] = 0xEF#8 ∧
    (t.encFrame[7] = 0xFB#8 ∨ t.encFrame[7] = 0xFC#8 ∨ t.encFrame[7] = 0xFD#8 ∨ t.encFrame[7] = 0xFE#8) ∧
    t.encFrame[7] ++ t.encFrame[8] ≠ 0x0000#16 ∧
    t.encFrame[3] = cmd ∧
    (cmd = 0x7E#8 → t.encFrame[3] = 0x7E#8) ∧ (cmd = 0xEF#8 → t.encFrame[3] = 0xEF#8)

/-- Whatever two buffers hold, the encoder's ten writes make the same frame of them: every offset is written, and
none keeps a value of an earlier frame. Derived from 41_encode.md R81; 10_state.md R25. -/
def Obligations.EncodeForgetsEarlierFrames : Prop :=
  ∀ (old old' : Frame) (cmd : Byte) (param : Word16), buildFrame old cmd param = buildFrame old' cmd param

/-- After ENCODE the single-bus view of enc_frame is 7E FF 06 c 00 h l k EF read as one 80-bit word with offset 0 in
bits [79:72], k the 16-bit checksum of (c, h, l), and under the mask of the 40 fixed bits it is a constant. Derived
from 30_encoding.md R61; 10_state.md R28. -/
def Obligations.FrameBusPattern : Prop :=
  ∀ (s : State) (cmd : Byte) (param : Word16), ∃ t : State, exec (.encode cmd param) s = .next t ∧
    frameBus t.encFrame = 0x7EFF06#24 ++ cmd ++ 0x00#8 ++ param ++
      checksum cmd (param.extractLsb' 8 8) (param.extractLsb' 0 8) ++ 0xEF#8 ∧
    frameBus t.encFrame &&& 0xFFFFFF00FF00000000FF#80 = 0x7EFF06000000000000EF#80

/-- ENCODE 0x06, 30 gives the frame 7E FF 06 06 00 00 1E FE D7 EF with checksum 65239 = 0xFED7, from the sum 0x129;
ENCODE 0x0F, (1 << 8) | 10 gives 7E FF 06 0F 00 01 0A FE E1 EF. (That ck_sum is unchanged although the unit runs
inside is the model's reading of R35, R46 and R48: log 4.) Derived from 41_encode.md R87; 10_state.md R35;
20_memory.md R46, R48; log 4. -/
def Obligations.EncodeWorkedExamples : Prop :=
  ∀ s : State,
    exec (.encode 0x06#8 30#16) s = .next { s with encFrame :=
      #v[0x7E#8, 0xFF#8, 0x06#8, 0x06#8, 0x00#8, 0x00#8, 0x1E#8, 0xFE#8, 0xD7#8, 0xEF#8] } ∧
    checksumSum 0x06#8 0x00#8 0x1E#8 = 0x129 ∧ (checksum 0x06#8 0x00#8 0x1E#8).toNat = 65239 ∧
    exec (.encode 0x0F#8 ((1#16 <<< 8) ||| 10#16)) s = .next { s with encFrame :=
      #v[0x7E#8, 0xFF#8, 0x06#8, 0x0F#8, 0x00#8, 0x01#8, 0x0A#8, 0xFE#8, 0xE1#8, 0xEF#8] }

/-- For every state, command and parameter ENCODE answers a next state with offset 5 of the frame the number param
>> 8 and offset 6 the number param & 0xFF; for a parameter packed from a folder and a track the high byte is the
folder and the low byte the track. States R63. -/
def Obligations.ParameterSplit : Prop :=
  (∀ (s : State) (cmd : Byte) (param : Word16), ∃ t : State, exec (.encode cmd param) s = .next t ∧
      t.encFrame[5] = param.extractLsb' 8 8 ∧ t.encFrame[6] = param.extractLsb' 0 8 ∧
      t.encFrame[5].toNat = param.toNat >>> 8 ∧ t.encFrame[6].toNat = param.toNat &&& 0xFF) ∧
    (∀ (s : State) (cmd folder track : Byte), ∃ t : State, exec (.encode cmd (folder ++ track)) s = .next t ∧
      t.encFrame[5] = folder ∧ t.encFrame[6] = track)

/-- For every state, command and parameter: ENCODE completes, and DECODE with data available, of exactly the ten
bytes on enc_frame, completes with PARSED(cmd, param[7:0], param), so the embedded checksum is the one DECODE
recomputes. (R111 is the spec's own inference ([derived: from 41_encode.md rule R80, 42_checksum.md rule R90 and
rule R100]), and the param output is its own addition (92 D6, log 19).) (That ck_sum is unchanged although the unit
runs inside is the model's reading of R35, R46 and R48: log 4.) Derived from 43_decode.md R111; 10_state.md R35;
20_memory.md R46, R48; 43_decode.md R105; log 4; log 19. -/
def Obligations.EncodeThenDecodeRoundTrip : Prop :=
  ∀ (s : State) (cmd : Byte) (param : Word16), ∃ t : State, exec (.encode cmd param) s = .next t ∧
    exec (.decode true) { t with decBuf := t.encFrame.toList } = .next
      { t with decBuf := t.encFrame.toList, decRes := .parsed cmd (param.extractLsb' 0 8) param }

/-- When the host's next act is a software call of ENCODE: a parameter in 0..0xFFFF becomes the EN request word
whose parameter field has that value, issued next; a negative one, or one of 0x10000 or more, is refused by the name
ParamOutOfRange. The act itself (callEncode) is the model's form of the call (log 3). Derived from 41_encode.md R85;
60_exceptions.md R135. -/
def Obligations.WideParameterIsRefused : Prop :=
  ∀ (s : State) (cmd : Byte) (p : Int) (rest : List HostStep), s.pending = .callEncode cmd p :: rest →
    (0 ≤ p ∧ p < 0x10000 → ∃ param : Word16, (param.toNat : Int) = p ∧
      step s = .next { s with pending := .request (encode (.encode cmd param)) :: rest }) ∧
    (p < 0 ∨ 0x10000 ≤ p → step s = .refused .paramOutOfRange)

/-- ENCODE cmd is ENCODE cmd, 0; SETVOL v is ENCODE 0x06, v; PLAYFF f, t is ENCODE 0x0F, (f << 8) | t, whose value
is 256 f + t. Derived from 30_encoding.md R75; 41_encode.md R84. -/
def Obligations.PseudoOperationExpansions : Prop :=
  (∀ cmd : Byte, assemble (.encodeDefault cmd) = assemble (.encode cmd 0)) ∧
    (∀ v : Int, assemble (.setvol v) = assemble (.encode 0x06#8 v)) ∧
    (∀ f t : Byte, assemble (.playff f t) = assemble (.encode 0x0F#8 (((f.toNat <<< 8) ||| t.toNat : Nat) : Int))) ∧
    (∀ f t : Byte, folderTrack f t = 256 * (f.toNat : Int) + (t.toNat : Int))

/-- For every state, whatever its input buffer holds, empty, a valid frame or anything else, DECODE with avail = 0
answers the state with NO_DATA on dec_res and nothing else changed; NO_DATA is not FRAMING. States R106. -/
def Obligations.NoDataWhenNoneAvailable : Prop :=
  (∀ s : State, exec (.decode false) s = .next { s with decRes := .noData }) ∧
    DecResult.noData ≠ DecResult.framing

/-- With avail = 1: a buffer whose length is not 10, short, empty or long, gives FRAMING; a ten-byte buffer whose
first byte is not 7E gives FRAMING; one whose last byte is not EF gives FRAMING, whatever the other bytes; nothing
else of the state changes. States R101, R102, R103. -/
def Obligations.FramingResults : Prop :=
  (∀ s : State, s.decBuf.length ≠ 10 → exec (.decode true) s = .next { s with decRes := .framing }) ∧
    (∀ (s : State) (b0 b1 b2 b3 b4 b5 b6 b7 b8 b9 : Byte), s.decBuf = [b0, b1, b2, b3, b4, b5, b6, b7, b8, b9] →
      b0 ≠ 0x7E#8 → exec (.decode true) s = .next { s with decRes := .framing }) ∧
    (∀ (s : State) (b0 b1 b2 b3 b4 b5 b6 b7 b8 b9 : Byte), s.decBuf = [b0, b1, b2, b3, b4, b5, b6, b7, b8, b9] →
      b9 ≠ 0xEF#8 → exec (.decode true) s = .next { s with decRes := .framing })

/-- With avail = 1, ten bytes, 7E first and EF last, and CHECKSUM(buf[3], buf[5], buf[6]) different from the 16 bits
buf[7] ++ buf[8], DECODE answers the state with CHECKSUM_MISMATCH and nothing else changed. (That ck_sum is
unchanged although the unit runs inside is the model's reading of R35, R46 and R48: log 4.) Derived from
43_decode.md R104, R110; 10_state.md R35; 20_memory.md R46, R48; log 4. -/
def Obligations.ChecksumMismatchResult : Prop :=
  ∀ (s : State) (b1 b2 b3 b4 b5 b6 b7 b8 : Byte), s.decBuf = [0x7E#8, b1, b2, b3, b4, b5, b6, b7, b8, 0xEF#8] →
    checksum b3 b5 b6 ≠ b7 ++ b8 → exec (.decode true) s = .next { s with decRes := .checksumMismatch }

/-- For every state: what CHECKSUM of (cmd, param[15:8], param[7:0]) drives on ck_sum is, high byte first, what
ENCODE puts at offsets 7 and 8; and a framed ten-byte buffer is PARSED exactly when its bytes 7 and 8 are what
CHECKSUM of (buf[3], buf[5], buf[6]) drives, whatever buf[1], buf[2] and buf[4] hold. States R94. -/
def Obligations.ChecksumUnitIsShared : Prop :=
  (∀ (s : State) (cmd : Byte) (param : Word16), ∃ c t : State,
      exec (.checksum cmd (param.extractLsb' 8 8) (param.extractLsb' 0 8)) s = .next c ∧
      exec (.encode cmd param) s = .next t ∧ t.encFrame[7] ++ t.encFrame[8] = c.ckSum) ∧
    (∀ (s : State) (b1 b2 b3 b4 b5 b6 b7 b8 : Byte), s.decBuf = [0x7E#8, b1, b2, b3, b4, b5, b6, b7, b8, 0xEF#8] →
      ∃ c t : State, exec (.checksum b3 b5 b6) s = .next c ∧ exec (.decode true) s = .next t ∧
        ((∃ ty v p, t.decRes = .parsed ty v p) ↔ b7 ++ b8 = c.ckSum))

/-- With avail = 1, ten bytes, 7E first and EF last, and CHECKSUM(buf[3], buf[5], buf[6]) equal to buf[7] ++ buf[8],
DECODE answers the state with PARSED(buf[3], buf[6], buf[5] ++ buf[6]) and nothing else changed, for every value of
buf[3] and every value at offsets 1, 2 and 4. (The param output is the spec's own addition (92 D6, log 19), and R109
its own inference ([derived: from rule R100]).) (That ck_sum is unchanged although the unit runs inside is the
model's reading of R35, R46 and R48: log 4.) Derived from 43_decode.md R105, R109; 30_encoding.md R66; 43_decode.md
R110; 10_state.md R35; 20_memory.md R46, R48; log 4; log 19. -/
def Obligations.ParsedResult : Prop :=
  ∀ (s : State) (b1 b2 b3 b4 b5 b6 b7 b8 : Byte), s.decBuf = [0x7E#8, b1, b2, b3, b4, b5, b6, b7, b8, 0xEF#8] →
    checksum b3 b5 b6 = b7 ++ b8 → exec (.decode true) s = .next { s with decRes := .parsed b3 b6 (b5 ++ b6) }

/-- For every state and avail, DECODE answers the state with a result r on dec_res: r is NO_DATA exactly when avail
= 0; FRAMING exactly when avail = 1 and the length is not 10 or a delimiter is wrong, whatever the checksum;
CHECKSUM_MISMATCH exactly when framing holds and the checksum is wrong; PARSED exactly when framing holds and the
checksum is right. (R136 is the spec's own inference ([derived: from 43_decode.md rule R107]).) (That ck_sum is
unchanged although the unit runs inside is the model's reading of R35, R46 and R48: log 4.) Derived from
60_exceptions.md R136; 43_decode.md R110; 10_state.md R35; 20_memory.md R46, R48; log 4. -/
def Obligations.ExactlyOneDecodeResult : Prop :=
  ∀ (s : State) (avail : Bool), ∃ r : DecResult, exec (.decode avail) s = .next { s with decRes := r } ∧
    (r = .noData ↔ avail = false) ∧
    (r = .framing ↔ avail = true ∧
      (s.decBuf.length ≠ 10 ∨ s.decBuf[0]? ≠ some 0x7E#8 ∨ s.decBuf[9]? ≠ some 0xEF#8)) ∧
    (r = .checksumMismatch ↔ avail = true ∧ ∃ b1 b2 b3 b4 b5 b6 b7 b8 : Byte,
      s.decBuf = [0x7E#8, b1, b2, b3, b4, b5, b6, b7, b8, 0xEF#8] ∧ checksum b3 b5 b6 ≠ b7 ++ b8) ∧
    ((∃ t v p, r = .parsed t v p) ↔ avail = true ∧ ∃ b1 b2 b3 b4 b5 b6 b7 b8 : Byte,
      s.decBuf = [0x7E#8, b1, b2, b3, b4, b5, b6, b7, b8, 0xEF#8] ∧ checksum b3 b5 b6 = b7 ++ b8)

/-- For every state, DECODE with data available reports PARSED with type t, value v and param p exactly when the
buffer is 7E x x t x h v k k EF with any x, k = CHECKSUM(t, h, v) big-endian and p = h ++ v. (That ck_sum is
unchanged although the unit runs inside is the model's reading of R35, R46 and R48: log 4.) (The param output p = h
++ v is the spec's own addition, R66 and R105 under 92 D6: log 19; R62 gives when PARSED is reported.) Derived from
30_encoding.md R62; 43_decode.md R110; 30_encoding.md R66; 43_decode.md R105; 10_state.md R35; 20_memory.md R46,
R48; log 4; log 19. -/
def Obligations.AcceptedPattern : Prop :=
  ∀ (s : State) (t v : Byte) (p : Word16),
    exec (.decode true) s = .next { s with decRes := .parsed t v p } ↔
      ∃ x1 x2 x4 h : Byte, p = h ++ v ∧ s.decBuf = [0x7E#8, x1, x2, t, x4, h, v,
        (checksum t h v).extractLsb' 8 8, (checksum t h v).extractLsb' 0 8, 0xEF#8]

/-- Two inputs that agree on what DECODE may read have one result: any two buffers when avail = 0; any two whose
lengths are not 10; two of ten bytes with equal delimiters that are wrong, whatever lies between; two framed ones
that agree at offsets 3, 5, 6, 7 and 8. Derived from 43_decode.md R106, R108. -/
def Obligations.DecodeReadSet : Prop :=
  (∀ buf buf' : List Byte, decodeFrame false buf = decodeFrame false buf') ∧
    (∀ buf buf' : List Byte, buf.length ≠ 10 → buf'.length ≠ 10 → decodeFrame true buf = decodeFrame true buf') ∧
    (∀ buf buf' : List Byte, buf.length = 10 → buf'.length = 10 → buf[0]? = buf'[0]? → buf[9]? = buf'[9]? →
      (buf[0]? ≠ some 0x7E#8 ∨ buf[9]? ≠ some 0xEF#8) → decodeFrame true buf = decodeFrame true buf') ∧
    (∀ buf buf' : List Byte, buf.length = 10 → buf'.length = 10 →
      (∀ k, k = 0 ∨ k = 3 ∨ k = 5 ∨ k = 6 ∨ k = 7 ∨ k = 8 ∨ k = 9 → buf[k]? = buf'[k]?) →
      decodeFrame true buf = decodeFrame true buf')

/-- For every state whose ten-byte buffer DECODE parses, and every offset i and bit k: with bit k of byte i flipped,
DECODE completes with FRAMING for i = 0 or 9, with CHECKSUM_MISMATCH for i = 3, 5, 6, 7 or 8, and with the same
PARSED payload for i = 1, 2 or 4. (That ck_sum is unchanged although the unit runs inside is the model's reading of
R35, R46 and R48: log 4.) Derived from 43_decode.md R112; 10_state.md R35; 20_memory.md R46; log 4. -/
def Obligations.SingleBitFlips : Prop :=
  ∀ (s : State) (t v : Byte) (p : Word16) (i k : Nat) (b : Byte),
    exec (.decode true) s = .next { s with decRes := .parsed t v p } → s.decBuf[i]? = some b → k < 8 →
    (i = 0 ∨ i = 9 → exec (.decode true) { s with decBuf := s.decBuf.set i (b ^^^ (1#8 <<< k)) } =
      .next { s with decBuf := s.decBuf.set i (b ^^^ (1#8 <<< k)), decRes := .framing }) ∧
    (i = 3 ∨ i = 5 ∨ i = 6 ∨ i = 7 ∨ i = 8 →
      exec (.decode true) { s with decBuf := s.decBuf.set i (b ^^^ (1#8 <<< k)) } =
      .next { s with decBuf := s.decBuf.set i (b ^^^ (1#8 <<< k)), decRes := .checksumMismatch }) ∧
    (i = 1 ∨ i = 2 ∨ i = 4 → exec (.decode true) { s with decBuf := s.decBuf.set i (b ^^^ (1#8 <<< k)) } =
      .next { s with decBuf := s.decBuf.set i (b ^^^ (1#8 <<< k)), decRes := .parsed t v p })

/-- A valid frame whose bytes 3, 5 and 6 are replaced by bytes of the same sum is PARSED with the changed payload; a
framed buffer whose embedded checksum is below 0xFBFE or above 0xFEFB gives CHECKSUM_MISMATCH. (That ck_sum is
unchanged although the unit runs inside is the model's reading of R35, R46 and R48: log 4.) (The param output is the
spec's own addition: log 19.) Derived from 43_decode.md R112; 42_checksum.md R91, R96; 10_state.md R35; 20_memory.md
R46, R48; log 4; log 19. -/
def Obligations.CompensatingChangesAndDeadChecksums : Prop :=
  (∀ (s : State) (b1 b2 b3 b4 b5 b6 b7 b8 c3 c5 c6 : Byte),
      s.decBuf = [0x7E#8, b1, b2, c3, b4, c5, c6, b7, b8, 0xEF#8] → checksum b3 b5 b6 = b7 ++ b8 →
      b3.toNat + b5.toNat + b6.toNat = c3.toNat + c5.toNat + c6.toNat →
      exec (.decode true) s = .next { s with decRes := .parsed c3 c6 (c5 ++ c6) }) ∧
    (∀ (s : State) (b1 b2 b3 b4 b5 b6 b7 b8 : Byte), s.decBuf = [0x7E#8, b1, b2, b3, b4, b5, b6, b7, b8, 0xEF#8] →
      (b7.toNat * 256 + b8.toNat < 0xFBFE ∨ 0xFEFB < b7.toNat * 256 + b8.toNat) →
      exec (.decode true) s = .next { s with decRes := .checksumMismatch })

/-- PARSED is 0b00, FRAMING 0b01, CHECKSUM_MISMATCH 0b10 and NO_DATA 0b11; the four results are distinct, and two
results with one code differ at most in the payload of PARSED. (The codes are the spec's own choice (92 D4, log
20).) Derived from 10_state.md R32. -/
def Obligations.ResultTagCodes : Prop :=
  (∀ t v p, (DecResult.parsed t v p).code = 0b00#2) ∧ DecResult.framing.code = 0b01#2 ∧
    DecResult.checksumMismatch.code = 0b10#2 ∧ DecResult.noData.code = 0b11#2 ∧
    (∀ r r' : DecResult, r.code = r'.code → r = r' ∨ ∃ t v p t' v' p', r = .parsed t v p ∧ r' = .parsed t' v' p')

/-- The views of dec_type, dec_value and dec_param have a value exactly when the result is PARSED, and then the
payload's own; after FRAMING, CHECKSUM_MISMATCH and NO_DATA there is none to read (the model's reading of I1, log
5). Derived from 10_state.md R33; 60_exceptions.md R131, R132, R133. -/
def Obligations.PayloadPortsOnParsedOnly : Prop :=
  ∀ (r : DecResult) (t v : Byte) (p : Word16),
    (r = .parsed t v p ↔ r.typePort = some t ∧ r.valuePort = some v ∧ r.paramPort = some p) ∧
    (r = .framing ∨ r = .checksumMismatch ∨ r = .noData ↔
      r.typePort = none ∧ r.valuePort = none ∧ r.paramPort = none)

/-- For every operation, all 256 commands, all 65536 parameters and every operand among them, and every state, exec
answers a next state. Derived from 60_exceptions.md R135; 41_encode.md R83. -/
def Obligations.EveryOperationCompletes : Prop :=
  ∀ (i : Instr) (s : State), ∃ t : State, exec i s = .next t

/-- For every operation and any two states with equal input buffers, both runs complete, their own output ports are
equal, and each run leaves everything but its own output port as it was: the other ports, the input buffer, the
host's and the transport's state. (That ck_sum is unchanged although the unit runs inside is the model's reading of
R35, R46 and R48: log 4.) Derived from 10_state.md R35; 20_memory.md R46, R48; log 4. -/
def Obligations.OperationsArePure : Prop :=
  ∀ (i : Instr) (s s' : State), s.decBuf = s'.decBuf → ∃ t t' : State, exec i s = .next t ∧ exec i s' = .next t' ∧
    sameOwnOutput i t t' ∧ onlyOwnPort i s t ∧ onlyOwnPort i s' t'

/-- Every operation completes, and done again on the state it left it answers that same state. (That ck_sum is
unchanged although the unit runs inside is the model's reading of R35, R46 and R48: log 4.) Derived from
20_memory.md R48; 10_state.md R35; 20_memory.md R46; log 4. -/
def Obligations.OperationsAreIdempotent : Prop :=
  ∀ (i : Instr) (s : State), ∃ t : State, exec i s = .next t ∧ exec i t = .next t

/-- For two operations of different kinds (CHECKSUM and ENCODE, CHECKSUM and DECODE, ENCODE and DECODE), doing one
and then the other answers the same state in either order: the result of each depends on nothing but its own inputs.
Two operations of one kind are not spoken of here: they drive one port, and OperationsArePure fixes the result of
each. (That ck_sum is unchanged although the unit runs inside is the model's reading of R35, R46 and R48: log 4.)
Derived from 20_memory.md R50; 10_state.md R35; 20_memory.md R46, R48; log 4. -/
def Obligations.OperationsOfDifferentKindsCommute : Prop :=
  ∀ (b3 ph pl cmd : Byte) (param : Word16) (avail : Bool) (i j : Instr) (s : State),
    (i = .checksum b3 ph pl ∧ (j = .encode cmd param ∨ j = .decode avail) ∨ i = .encode cmd param ∧ j = .decode avail) →
    ∃ t u v : State, exec i s = .next t ∧ exec j t = .next v ∧ exec j s = .next u ∧ exec i u = .next v

/-- One step from any state answers a next state, or is refused as ReservedRequest, exactly when the next act issues
a word that is not well formed (op = 0b11 or a nonzero reserved bit), or is refused as ParamOutOfRange, exactly when
the next act calls ENCODE with a parameter outside 0..0xFFFF; nothing else stops it. Derived from 60_exceptions.md
R135; 30_encoding.md R70; 41_encode.md R85. -/
def Obligations.StepStopsOnlyOnInterfaceRefusals : Prop :=
  ∀ s : State,
    (step s = .refused .reservedRequest ↔
      ∃ w rest, s.pending = .request w :: rest ∧ requestWellFormed w = false) ∧
    (step s = .refused .paramOutOfRange ↔
      ∃ cmd p rest, s.pending = .callEncode cmd p :: rest ∧ (p < 0 ∨ 0x10000 ≤ p)) ∧
    ((∃ t, step s = .next t) ∨ step s = .refused .reservedRequest ∨ step s = .refused .paramOutOfRange)

/-- From any state whose pending acts begin with a Send of a command and a 16-bit parameter, three steps (call,
ENCODE, write; the cut into steps is the model's, log 3) leave the frame on enc_frame and exactly one more write
call, of its ten bytes in offset order, and nothing else changed. (That ck_sum is unchanged although the unit runs
inside is the model's reading of R35, R46 and R48: log 4.) Derived from 44_host_compositions.md R120; 20_memory.md
R41; 10_state.md R35; 20_memory.md R46, R48; log 4. -/
def Obligations.SendIsOneEncodeAndOneWrite : Prop :=
  ∀ (s : State) (cmd : Byte) (param : Word16) (rest : List HostStep),
    s.pending = assemble (.send cmd (param.toNat : Int)) ++ rest →
    runSteps 3 s = .next { s with
      pending := rest
      encFrame := frameOf cmd param
      written := s.written ++ [[0x7E#8, 0xFF#8, 0x06#8, cmd, 0x00#8, param.extractLsb' 8 8, param.extractLsb' 0 8,
        (checksum cmd (param.extractLsb' 8 8) (param.extractLsb' 0 8)).extractLsb' 8 8,
        (checksum cmd (param.extractLsb' 8 8) (param.extractLsb' 0 8)).extractLsb' 0 8, 0xEF#8]] }

/-- From any state whose pending acts begin with POLL: when the transport reports no data, the poll ends with
NO_DATA kept, no read made and no write; when it reports data, one read of at most 10 bytes is made, DECODE has its
bytes unmodified, and the host keeps the (type_byte, value_byte) pair on PARSED, else the failure; nothing is sent.
The number of steps (4 or 5) is the model's (log 3). (That ck_sum is unchanged although the unit runs inside is the
model's reading of R35, R46 and R48: log 4.) Derived from 44_host_compositions.md R122; 70_reset_and_hazards.md
R154; 10_state.md R35; 20_memory.md R46, R48; log 4. -/
def Obligations.FeedbackPoll : Prop :=
  ∀ (s : State) (rest : List HostStep), s.pending = assemble .poll ++ rest →
    (s.availReport = false → runSteps 4 s = .next { s.afterReport with
      pending := rest, decBuf := [], decRes := .noData, kept := s.kept ++ [.poll .noData] }) ∧
    (s.availReport = true → (s.afterReport.readResult 10).length ≤ 10 ∧
      runSteps 5 s = .next { s.afterReport.afterRead with
        pending := rest
        decBuf := s.afterReport.readResult 10
        decRes := decodeFrame true (s.afterReport.readResult 10)
        kept := s.kept ++ [.poll (decodeFrame true (s.afterReport.readResult 10)).toPoll] })

/-- From any state whose pending acts begin with the query sequence for any command code and wait: exactly one frame
ENCODE(cmd, 0) is written, then after the wait availability is asked once; with none the host keeps NO_DATA, with
data it reads at most 10 bytes once, decodes them and keeps the value byte on PARSED, else the failure unchanged.
The command code and the wait are open parameters (logs 7, 8), the number of steps the model's (log 3). (That ck_sum
is unchanged although the unit runs inside is the model's reading of R35, R46 and R48: log 4.) Derived from
44_host_compositions.md R123; 70_reset_and_hazards.md R158; 10_state.md R35; 20_memory.md R46, R48; log 4. -/
def Obligations.StatusQuery : Prop :=
  ∀ (s : State) (cmd : Byte) (wait : Nat) (rest : List HostStep), s.pending = querySteps cmd wait ++ rest →
    (s.availReport = false → runSteps 8 s = .next { s.afterReport with
      pending := rest
      encFrame := frameOf cmd 0#16
      written := s.written ++ [(frameOf cmd 0#16).toList]
      decBuf := []
      decRes := .noData
      kept := s.kept ++ [.status .noData] }) ∧
    (s.availReport = true → runSteps 9 s = .next { s.afterReport.afterRead with
      pending := rest
      encFrame := frameOf cmd 0#16
      written := s.written ++ [(frameOf cmd 0#16).toList]
      decBuf := s.afterReport.readResult 10
      decRes := decodeFrame true (s.afterReport.readResult 10)
      kept := s.kept ++ [.status (decodeFrame true (s.afterReport.readResult 10)).toQuery] })

/-- POLL returns the (type_byte, value_byte) pair and QUERY the value byte for PARSED only; for FRAMING,
CHECKSUM_MISMATCH and NO_DATA both return that failure unchanged, and never a pair or a status. Derived from
44_host_compositions.md R122, R123, R125. -/
def Obligations.PollAndQueryResults : Prop :=
  ∀ (r : DecResult),
    (∀ t v, r.toPoll = .pair t v ↔ ∃ p, r = .parsed t v p) ∧ (∀ v, r.toQuery = .status v ↔ ∃ t p, r = .parsed t v p) ∧
    (r.toPoll = .framing ↔ r = .framing) ∧ (r.toQuery = .framing ↔ r = .framing) ∧
    (r.toPoll = .checksumMismatch ↔ r = .checksumMismatch) ∧ (r.toQuery = .checksumMismatch ↔ r = .checksumMismatch) ∧
    (r.toPoll = .noData ↔ r = .noData) ∧ (r.toQuery = .noData ↔ r = .noData)

/-- In every state a read of n returns at most n bytes; for every list of at most n bytes some state's read returns
it, and both answers of data_available are possible. Derived from 44_host_compositions.md R121;
93_implementation_defined.md I6. -/
def Obligations.TransportReadIsFreeUpToItsBound : Prop :=
  (∀ (s : State) (n : Nat), (s.readResult n).length ≤ n) ∧
    (∀ (n : Nat) (buf : List Byte), buf.length ≤ n → ∃ s : State, s.readResult n = buf) ∧
    (∀ a : Bool, ∃ s : State, s.availReport = a)

/-- If a step answers a next state, the write calls made so far are the same as before, unless the host's act was
write, and then they are the earlier ones followed by the ten bytes on enc_frame: no operation of the block calls
the transport, and no call is ever taken back. Derived from 44_host_compositions.md R120; 20_memory.md R48, R50. -/
def Obligations.OnlyTheHostWritesTheTransport : Prop :=
  ∀ s t : State, step s = .next t →
    (∃ rest, s.pending = .write :: rest ∧ t.written = s.written ++ [s.encFrame.toList]) ∨
    ((∀ rest, s.pending ≠ .write :: rest) ∧ t.written = s.written)

/-- If a step answers a next state and the host's act did not issue an operation, enc_frame, ck_sum and the
decoder's result are as before: the block acts only when the host issues an operation. Derived from 10_state.md R20.
-/
def Obligations.BlockActsOnlyWhenIssued : Prop :=
  ∀ s t : State, step s = .next t → (∀ w rest, s.pending ≠ .request w :: rest) →
    t.encFrame = s.encFrame ∧ t.ckSum = s.ckSum ∧ t.decRes = s.decRes

/-- For every state in which every write call carried a frame ENCODE produced and no pending write comes before an
ENCODE, if a step answers a next state then both hold of it again. (One host, whose sequences do not overlap: log
11.) Derived from 44_host_compositions.md R120, R124; 41_encode.md R82; 20_memory.md R54. -/
def Obligations.WireInvariantKept : Prop :=
  ∀ s t : State, WireInv s → step s = .next t → WireInv t

/-- Right after reset nothing has been written and nothing is pending, so the wire invariant holds. Derived from
70_reset_and_hazards.md R150; 44_host_compositions.md R120. -/
def Obligations.WireInvariantAtReset : Prop :=
  WireInv State.reset

/-- From any state that meets the wire invariant with nothing pending, loading any list of lines (operations,
pseudo-operations, Send, POLL, QUERY, raw request words) meets it again: no such program writes before it encodes.
Derived from 44_host_compositions.md R120, R122, R123; 30_encoding.md R74, R75. -/
def Obligations.AssembledProgramsMeetTheWireInvariant : Prop :=
  ∀ (s : State) (lines : List AsmLine), WireInv s → s.pending = [] →
    WireInv { s with pending := assembleAll lines }

/-- If the wire invariant holds of a state, then for every write call's bytes there are a type, a value and a
parameter such that DECODE of those bytes, in any state, completes with PARSED of them. (That ck_sum is unchanged
although the unit runs inside is the model's reading of R35, R46 and R48: log 4.) Derived from 41_encode.md R82;
43_decode.md R111; 10_state.md R35; 20_memory.md R46, R48; log 4. -/
def Obligations.WrittenBytesParse : Prop :=
  ∀ s : State, WireInv s → ∀ bytes ∈ s.written, ∃ (t v : Byte) (p : Word16), ∀ u : State,
    exec (.decode true) { u with decBuf := bytes } = .next { u with decBuf := bytes, decRes := .parsed t v p }

/-- For every operation and every state: issued as the first act after reset, with the state's own input buffer
presented, it completes with the same output as when issued next in that state. Derived from 70_reset_and_hazards.md
R150, R151; 10_state.md R34. -/
def Obligations.FirstOperationAsAnyLater : Prop :=
  ∀ (i : Instr) (s : State), ∃ t u : State,
    step (State.withFetchWord { State.reset with decBuf := s.decBuf } 32 (encode i).toNat) = .next t ∧
    step (s.withFetchWord 32 (encode i).toNat) = .next u ∧ sameOwnOutput i t u
end

