-- ==== Sys2Proof/Laws/Ops.lean ====
section
/-! SUPPORT. One lemma per shared operation of the frame units: what it computes, said once. -/

namespace Sys2Proof.Machine

/-- The bits of two bytes side by side, the more significant byte first (20_memory.md R43). -/
theorem getLsbD_be16 (h l : Byte) (k : Nat) : (be16 h l).getLsbD k = if k < 8 then l.getLsbD k else h.getLsbD (k - 8) :=
  BitVec.getLsbD_append

@[simp] theorem hiByte_be16 (h l : Byte) : hiByte (be16 h l) = h := by
  apply BitVec.eq_of_getLsbD_eq
  intro k hk
  simp [hiByte, getLsbD_be16, hk]

@[simp] theorem loByte_be16 (h l : Byte) : loByte (be16 h l) = l := by
  apply BitVec.eq_of_getLsbD_eq
  intro k hk
  simp [loByte, getLsbD_be16, hk]

@[simp] theorem be16_bytes (v : Word16) : be16 (hiByte v) (loByte v) = v := by
  apply BitVec.eq_of_getLsbD_eq
  intro k hk
  rw [getLsbD_be16]
  split
  · next h => simp [loByte, h]
  · next h => simp [hiByte, show k - 8 < 8 by omega, show 8 + (k - 8) = k by omega]

/-- Two words are equal when their bytes are. -/
theorem be16_inj {h l h' l' : Byte} : be16 h l = be16 h' l' ↔ h = h' ∧ l = l' := by
  constructor
  · intro e
    exact ⟨by simpa using congrArg hiByte e, by simpa using congrArg loByte e⟩
  · rintro ⟨rfl, rfl⟩
    rfl

/-- The sum as a number (42_checksum.md R91). -/
theorem checksumSum_eq (b3 ph pl : Byte) : checksumSum b3 ph pl = 0x105 + b3.toNat + ph.toNat + pl.toNat := by
  simp [checksumSum]

/-- The sum lies in 0x105 to 0x402 (42_checksum.md R91). -/
theorem checksumSum_bounds (b3 ph pl : Byte) : 0x105 ≤ checksumSum b3 ph pl ∧ checksumSum b3 ph pl ≤ 0x402 := by
  have := b3.isLt
  have := ph.isLt
  have := pl.isLt
  rw [checksumSum_eq]
  omega

/-- The checksum as a number: nothing wraps but the one negation (42_checksum.md R92). -/
theorem checksum_toNat (b3 ph pl : Byte) : (checksum b3 ph pl).toNat = 0x10000 - checksumSum b3 ph pl := by
  have := checksumSum_bounds b3 ph pl
  simp only [checksum, BitVec.toNat_ofInt]
  omega

/-- The checksum depends on the operands' sum alone (42_checksum.md R96). -/
theorem checksum_eq_iff (b3 ph pl b3' ph' pl' : Byte) :
    checksum b3 ph pl = checksum b3' ph' pl' ↔ checksumSum b3 ph pl = checksumSum b3' ph' pl' := by
  have h := checksumSum_bounds b3 ph pl
  have h' := checksumSum_bounds b3' ph' pl'
  rw [← BitVec.toNat_inj, checksum_toNat, checksum_toNat]
  omega

/-- The ten bytes ENCODE writes, whatever the buffer held (41_encode.md R80, R81). -/
theorem buildFrame_eq (fresh : Frame) (cmd : Byte) (param : Word16) :
    buildFrame fresh cmd param = #v[startByte, versionByte, lengthByte, cmd, feedbackFlag, hiByte param, loByte param,
      hiByte (checksum cmd (hiByte param) (loByte param)), loByte (checksum cmd (hiByte param) (loByte param)), endByte] := by
  ext k hk
  rcases (show k = 0 ∨ k = 1 ∨ k = 2 ∨ k = 3 ∨ k = 4 ∨ k = 5 ∨ k = 6 ∨ k = 7 ∨ k = 8 ∨ k = 9 by omega) with
    rfl | rfl | rfl | rfl | rfl | rfl | rfl | rfl | rfl | rfl <;>
    simp [buildFrame, memWrite1, memWrite2]

/-- A buffer that is not ten bytes long, or was reported absent, is settled before any byte is read (43_decode.md R101, R106). -/
theorem decodeFrame_noData (buf : List Byte) : decodeFrame false buf = .noData := by
  simp [decodeFrame]

theorem decodeFrame_badLength {buf : List Byte} (h : buf.length ≠ 10) : decodeFrame true buf = .framing := by
  simp [decodeFrame, h]

/-- The checks of a ten-byte buffer (43_decode.md R102 to R105). -/
theorem decodeFrame_ten (b0 b1 b2 b3 b4 b5 b6 b7 b8 b9 : Byte) :
    decodeFrame true [b0, b1, b2, b3, b4, b5, b6, b7, b8, b9] =
      if b0 ≠ 0x7E#8 ∨ b9 ≠ 0xEF#8 then .framing
      else if checksum b3 b5 b6 ≠ be16 b7 b8 then .checksumMismatch
      else .parsed b3 b6 (be16 b5 b6) := by
  by_cases h0 : b0 = 0x7E#8 <;> by_cases h9 : b9 = 0xEF#8 <;>
    simp [decodeFrame, checkFrame, frameOfBuf, memRead1, memRead2, h0, h9]

/-- A list of ten bytes is its ten bytes. -/
theorem eq_ten_of_length {buf : List Byte} (h : buf.length = 10) :
    ∃ b0 b1 b2 b3 b4 b5 b6 b7 b8 b9, buf = [b0, b1, b2, b3, b4, b5, b6, b7, b8, b9] := by
  match buf, h with
  | [b0, b1, b2, b3, b4, b5, b6, b7, b8, b9], _ => exact ⟨_, _, _, _, _, _, _, _, _, _, rfl⟩

end Sys2Proof.Machine
end

