-- ==== Sys2Proof/Laws/PerInstr.lean ====
section
/-! SUPPORT. Per-instruction facts about request words. -/

namespace Sys2Proof.Laws.RequestWord

/-- The request word of an operation selects an operation and has its reserved bits zero (30_encoding.md R68, R69). -/
def Statement (i : Instr) : Prop := requestWellFormed (encode i) = true

/-- The bits of a request word that a field fills (30_encoding.md R68). -/
theorem getLsbD_fieldAt {n : Nat} (v : BitVec n) (lo : Nat) {k : Nat} (hk : k < 26) :
    (fieldAt n v lo).getLsbD k = (decide (lo ≤ k) && v.getLsbD (k - lo)) := by
  by_cases h : lo ≤ k
  · simp [fieldAt, hk, h, show ¬ k < lo by omega]
  · simp [fieldAt, h, show k < lo by omega]

/-- A CK word's operation select is 0b00 (30_encoding.md R68). -/
theorem op_checksum (b3 ph pl : Byte) : (Sys2Proof.encode (.checksum b3 ph pl)).extractLsb' 24 2 = 0b00#2 := by
  apply BitVec.eq_of_getLsbD_eq
  intro k hk
  have h26 : 24 + k < 26 := by omega
  simp only [BitVec.getLsbD_extractLsb', Sys2Proof.encode, BitVec.getLsbD_or, getLsbD_fieldAt _ _ h26]
  simp [BitVec.getLsbD_of_ge b3 (24 + k - 16) (by omega), BitVec.getLsbD_of_ge ph (24 + k - 8) (by omega),
    BitVec.getLsbD_of_ge pl (24 + k) (by omega)]

/-- An EN word's operation select is 0b01 (30_encoding.md R68). -/
theorem op_encode (cmd : Byte) (param : Word16) : (Sys2Proof.encode (.encode cmd param)).extractLsb' 24 2 = 0b01#2 := by
  apply BitVec.eq_of_getLsbD_eq
  intro k hk
  have h26 : 24 + k < 26 := by omega
  simp only [BitVec.getLsbD_extractLsb', Sys2Proof.encode, BitVec.getLsbD_or, getLsbD_fieldAt _ _ h26]
  simp [hk, BitVec.getLsbD_of_ge cmd (24 + k - 16) (by omega), BitVec.getLsbD_of_ge param (24 + k) (by omega)]

theorem checksum (b3 ph pl : Byte) : Statement (.checksum b3 ph pl) := by
  unfold Statement requestWellFormed opAssigned reservedBitsZero
  rw [op_checksum]
  rfl

theorem encode (cmd : Byte) (param : Word16) : Statement (.encode cmd param) := by
  unfold Statement requestWellFormed opAssigned reservedBitsZero
  rw [op_encode]
  rfl

theorem decode (avail : Bool) : Statement (.decode avail) := by
  unfold Statement
  cases avail <;> decide

end Sys2Proof.Laws.RequestWord
end

