-- ==== Sys2Proof/Laws/State.lean ====
section
/-! SUPPORT. What each update of the state leaves in each field. -/

namespace Sys2Proof.Machine

variable (s : State)

@[simp] theorem State.driveFrame_encFrame (f : Frame) : (s.driveFrame f).encFrame = f := rfl
@[simp] theorem State.driveFrame_ckSum (f : Frame) : (s.driveFrame f).ckSum = s.ckSum := rfl
@[simp] theorem State.driveFrame_decRes (f : Frame) : (s.driveFrame f).decRes = s.decRes := rfl
@[simp] theorem State.driveFrame_decBuf (f : Frame) : (s.driveFrame f).decBuf = s.decBuf := rfl
@[simp] theorem State.driveFrame_pending (f : Frame) : (s.driveFrame f).pending = s.pending := rfl
@[simp] theorem State.driveFrame_kept (f : Frame) : (s.driveFrame f).kept = s.kept := rfl
@[simp] theorem State.driveFrame_written (f : Frame) : (s.driveFrame f).written = s.written := rfl
@[simp] theorem State.driveFrame_availReports (f : Frame) : (s.driveFrame f).availReports = s.availReports := rfl
@[simp] theorem State.driveFrame_readData (f : Frame) : (s.driveFrame f).readData = s.readData := rfl
@[simp] theorem State.driveFrame_draws (f : Frame) : (s.driveFrame f).draws = s.draws := rfl

@[simp] theorem State.driveSum_encFrame (v : Word16) : (s.driveSum v).encFrame = s.encFrame := rfl
@[simp] theorem State.driveSum_ckSum (v : Word16) : (s.driveSum v).ckSum = v := rfl
@[simp] theorem State.driveSum_decRes (v : Word16) : (s.driveSum v).decRes = s.decRes := rfl
@[simp] theorem State.driveSum_decBuf (v : Word16) : (s.driveSum v).decBuf = s.decBuf := rfl
@[simp] theorem State.driveSum_pending (v : Word16) : (s.driveSum v).pending = s.pending := rfl
@[simp] theorem State.driveSum_kept (v : Word16) : (s.driveSum v).kept = s.kept := rfl
@[simp] theorem State.driveSum_written (v : Word16) : (s.driveSum v).written = s.written := rfl
@[simp] theorem State.driveSum_availReports (v : Word16) : (s.driveSum v).availReports = s.availReports := rfl
@[simp] theorem State.driveSum_readData (v : Word16) : (s.driveSum v).readData = s.readData := rfl
@[simp] theorem State.driveSum_draws (v : Word16) : (s.driveSum v).draws = s.draws := rfl

@[simp] theorem State.driveResult_encFrame (r : DecResult) : (s.driveResult r).encFrame = s.encFrame := rfl
@[simp] theorem State.driveResult_ckSum (r : DecResult) : (s.driveResult r).ckSum = s.ckSum := rfl
@[simp] theorem State.driveResult_decRes (r : DecResult) : (s.driveResult r).decRes = r := rfl
@[simp] theorem State.driveResult_decBuf (r : DecResult) : (s.driveResult r).decBuf = s.decBuf := rfl
@[simp] theorem State.driveResult_pending (r : DecResult) : (s.driveResult r).pending = s.pending := rfl
@[simp] theorem State.driveResult_kept (r : DecResult) : (s.driveResult r).kept = s.kept := rfl
@[simp] theorem State.driveResult_written (r : DecResult) : (s.driveResult r).written = s.written := rfl
@[simp] theorem State.driveResult_availReports (r : DecResult) : (s.driveResult r).availReports = s.availReports := rfl
@[simp] theorem State.driveResult_readData (r : DecResult) : (s.driveResult r).readData = s.readData := rfl
@[simp] theorem State.driveResult_draws (r : DecResult) : (s.driveResult r).draws = s.draws := rfl

@[simp] theorem State.driveBuf_encFrame (buf : List Byte) : (s.driveBuf buf).encFrame = s.encFrame := rfl
@[simp] theorem State.driveBuf_ckSum (buf : List Byte) : (s.driveBuf buf).ckSum = s.ckSum := rfl
@[simp] theorem State.driveBuf_decRes (buf : List Byte) : (s.driveBuf buf).decRes = s.decRes := rfl
@[simp] theorem State.driveBuf_decBuf (buf : List Byte) : (s.driveBuf buf).decBuf = buf := rfl
@[simp] theorem State.driveBuf_pending (buf : List Byte) : (s.driveBuf buf).pending = s.pending := rfl
@[simp] theorem State.driveBuf_kept (buf : List Byte) : (s.driveBuf buf).kept = s.kept := rfl
@[simp] theorem State.driveBuf_written (buf : List Byte) : (s.driveBuf buf).written = s.written := rfl
@[simp] theorem State.driveBuf_availReports (buf : List Byte) : (s.driveBuf buf).availReports = s.availReports := rfl
@[simp] theorem State.driveBuf_readData (buf : List Byte) : (s.driveBuf buf).readData = s.readData := rfl
@[simp] theorem State.driveBuf_draws (buf : List Byte) : (s.driveBuf buf).draws = s.draws := rfl

@[simp] theorem State.setPending_encFrame (p : List HostStep) : (s.setPending p).encFrame = s.encFrame := rfl
@[simp] theorem State.setPending_ckSum (p : List HostStep) : (s.setPending p).ckSum = s.ckSum := rfl
@[simp] theorem State.setPending_decRes (p : List HostStep) : (s.setPending p).decRes = s.decRes := rfl
@[simp] theorem State.setPending_decBuf (p : List HostStep) : (s.setPending p).decBuf = s.decBuf := rfl
@[simp] theorem State.setPending_pending (p : List HostStep) : (s.setPending p).pending = p := rfl
@[simp] theorem State.setPending_kept (p : List HostStep) : (s.setPending p).kept = s.kept := rfl
@[simp] theorem State.setPending_written (p : List HostStep) : (s.setPending p).written = s.written := rfl
@[simp] theorem State.setPending_availReports (p : List HostStep) : (s.setPending p).availReports = s.availReports := rfl
@[simp] theorem State.setPending_readData (p : List HostStep) : (s.setPending p).readData = s.readData := rfl
@[simp] theorem State.setPending_draws (p : List HostStep) : (s.setPending p).draws = s.draws := rfl

@[simp] theorem State.performNext_encFrame (p : List HostStep) : (s.performNext p).encFrame = s.encFrame := rfl
@[simp] theorem State.performNext_ckSum (p : List HostStep) : (s.performNext p).ckSum = s.ckSum := rfl
@[simp] theorem State.performNext_decRes (p : List HostStep) : (s.performNext p).decRes = s.decRes := rfl
@[simp] theorem State.performNext_decBuf (p : List HostStep) : (s.performNext p).decBuf = s.decBuf := rfl
@[simp] theorem State.performNext_pending (p : List HostStep) : (s.performNext p).pending = p ++ s.pending := rfl
@[simp] theorem State.performNext_kept (p : List HostStep) : (s.performNext p).kept = s.kept := rfl
@[simp] theorem State.performNext_written (p : List HostStep) : (s.performNext p).written = s.written := rfl
@[simp] theorem State.performNext_availReports (p : List HostStep) : (s.performNext p).availReports = s.availReports := rfl
@[simp] theorem State.performNext_readData (p : List HostStep) : (s.performNext p).readData = s.readData := rfl
@[simp] theorem State.performNext_draws (p : List HostStep) : (s.performNext p).draws = s.draws := rfl

@[simp] theorem State.keep_encFrame (v : HostValue) : (s.keep v).encFrame = s.encFrame := rfl
@[simp] theorem State.keep_ckSum (v : HostValue) : (s.keep v).ckSum = s.ckSum := rfl
@[simp] theorem State.keep_decRes (v : HostValue) : (s.keep v).decRes = s.decRes := rfl
@[simp] theorem State.keep_decBuf (v : HostValue) : (s.keep v).decBuf = s.decBuf := rfl
@[simp] theorem State.keep_pending (v : HostValue) : (s.keep v).pending = s.pending := rfl
@[simp] theorem State.keep_kept (v : HostValue) : (s.keep v).kept = s.kept ++ [v] := rfl
@[simp] theorem State.keep_written (v : HostValue) : (s.keep v).written = s.written := rfl
@[simp] theorem State.keep_availReports (v : HostValue) : (s.keep v).availReports = s.availReports := rfl
@[simp] theorem State.keep_readData (v : HostValue) : (s.keep v).readData = s.readData := rfl
@[simp] theorem State.keep_draws (v : HostValue) : (s.keep v).draws = s.draws := rfl

@[simp] theorem State.writeBytes_encFrame (bytes : List Byte) : (s.writeBytes bytes).encFrame = s.encFrame := rfl
@[simp] theorem State.writeBytes_ckSum (bytes : List Byte) : (s.writeBytes bytes).ckSum = s.ckSum := rfl
@[simp] theorem State.writeBytes_decRes (bytes : List Byte) : (s.writeBytes bytes).decRes = s.decRes := rfl
@[simp] theorem State.writeBytes_decBuf (bytes : List Byte) : (s.writeBytes bytes).decBuf = s.decBuf := rfl
@[simp] theorem State.writeBytes_pending (bytes : List Byte) : (s.writeBytes bytes).pending = s.pending := rfl
@[simp] theorem State.writeBytes_kept (bytes : List Byte) : (s.writeBytes bytes).kept = s.kept := rfl
@[simp] theorem State.writeBytes_written (bytes : List Byte) : (s.writeBytes bytes).written = s.written ++ [bytes] := rfl
@[simp] theorem State.writeBytes_availReports (bytes : List Byte) : (s.writeBytes bytes).availReports = s.availReports := rfl
@[simp] theorem State.writeBytes_readData (bytes : List Byte) : (s.writeBytes bytes).readData = s.readData := rfl
@[simp] theorem State.writeBytes_draws (bytes : List Byte) : (s.writeBytes bytes).draws = s.draws := rfl

@[simp] theorem State.afterReport_encFrame : (s.afterReport).encFrame = s.encFrame := rfl
@[simp] theorem State.afterReport_ckSum : (s.afterReport).ckSum = s.ckSum := rfl
@[simp] theorem State.afterReport_decRes : (s.afterReport).decRes = s.decRes := rfl
@[simp] theorem State.afterReport_decBuf : (s.afterReport).decBuf = s.decBuf := rfl
@[simp] theorem State.afterReport_pending : (s.afterReport).pending = s.pending := rfl
@[simp] theorem State.afterReport_kept : (s.afterReport).kept = s.kept := rfl
@[simp] theorem State.afterReport_written : (s.afterReport).written = s.written := rfl
@[simp] theorem State.afterReport_availReports : (s.afterReport).availReports = s.availReports.tail := rfl
@[simp] theorem State.afterReport_readData : (s.afterReport).readData = s.readData := rfl
@[simp] theorem State.afterReport_draws : (s.afterReport).draws = if s.availReports.isEmpty then s.draws + 1 else s.draws := rfl

@[simp] theorem State.afterRead_encFrame : (s.afterRead).encFrame = s.encFrame := rfl
@[simp] theorem State.afterRead_ckSum : (s.afterRead).ckSum = s.ckSum := rfl
@[simp] theorem State.afterRead_decRes : (s.afterRead).decRes = s.decRes := rfl
@[simp] theorem State.afterRead_decBuf : (s.afterRead).decBuf = s.decBuf := rfl
@[simp] theorem State.afterRead_pending : (s.afterRead).pending = s.pending := rfl
@[simp] theorem State.afterRead_kept : (s.afterRead).kept = s.kept := rfl
@[simp] theorem State.afterRead_written : (s.afterRead).written = s.written := rfl
@[simp] theorem State.afterRead_availReports : (s.afterRead).availReports = s.availReports := rfl
@[simp] theorem State.afterRead_readData : (s.afterRead).readData = s.readData.tail := rfl
@[simp] theorem State.afterRead_draws : (s.afterRead).draws = if s.readData.isEmpty then s.draws + 1 else s.draws := rfl

end Sys2Proof.Machine
end

