-- ==== Sys2Proof/Laws/Steps.lean ====
section
/-! SUPPORT. What one step can do, said once. -/

namespace Sys2Proof.Machine

@[simp] theorem exec_checksum (b3 ph pl : Byte) (s : State) :
    exec (.checksum b3 ph pl) s = .next (s.driveSum (checksum b3 ph pl)) := rfl

@[simp] theorem exec_encode (cmd : Byte) (param : Word16) (s : State) :
    exec (.encode cmd param) s = .next (s.driveFrame (frameOf cmd param)) := rfl

@[simp] theorem exec_decode (avail : Bool) (s : State) :
    exec (.decode avail) s = .next (s.driveResult (decodeFrame avail s.decBuf)) := rfl

/-- What one step that answers a next state has done. -/
theorem step_cases {s t : State} (h : step s = .next t) :
    (s.pending = [] ∧ t = s) ∨ ∃ rest, let s' := s.setPending rest
      (∃ w i, s.pending = .request w :: rest ∧ decode w = .ok i ∧ exec i s' = .next t) ∨
      (∃ cmd p, s.pending = .callEncode cmd p :: rest ∧ paramInRange p = true ∧
        t = s'.performNext [.request (encode (.encode cmd (BitVec.ofInt 16 p)))]) ∨
      (∃ buf, s.pending = .drive buf :: rest ∧ t = s'.driveBuf buf) ∨
      (s.pending = .write :: rest ∧ t = s'.writeBytes s.encFrame.toList) ∨
      (∃ d, s.pending = .wait d :: rest ∧ t = s') ∨
      (s.pending = .checkAvail :: rest ∧ t = s'.afterReport.performNext (afterAvail s.availReport)) ∨
      (∃ n, s.pending = .read n :: rest ∧
        t = s'.afterRead.performNext [.drive (s.readResult n), .request (encode (.decode true))]) ∨
      (∃ what, s.pending = .take what :: rest ∧ t = s'.keep (s.takeValue what)) := by
  unfold step hostStep at h
  split at h
  · next hp => exact .inl ⟨hp, by cases h; rfl⟩
  · next hd rest hp =>
    refine .inr ⟨rest, ?_⟩
    cases hd with
    | request w =>
      simp only [runHostStep, hostRequest] at h
      split at h
      · next i hi => exact .inl ⟨w, i, hp, hi, h⟩
      · cases h
    | callEncode cmd p =>
      simp only [runHostStep, hostCallEncode] at h
      split at h
      · next hr => exact .inr (.inl ⟨cmd, p, hp, hr, by cases h; rfl⟩)
      · cases h
    | drive buf => exact .inr (.inr (.inl ⟨buf, hp, by cases h; rfl⟩))
    | write => exact .inr (.inr (.inr (.inl ⟨hp, by cases h; rfl⟩)))
    | wait d => exact .inr (.inr (.inr (.inr (.inl ⟨d, hp, by cases h; rfl⟩))))
    | checkAvail => exact .inr (.inr (.inr (.inr (.inr (.inl ⟨hp, by cases h; rfl⟩)))))
    | read n => exact .inr (.inr (.inr (.inr (.inr (.inr (.inl ⟨n, hp, by cases h; rfl⟩))))))
    | take what => exact .inr (.inr (.inr (.inr (.inr (.inr (.inr ⟨what, hp, by cases h; rfl⟩))))))

/-- With a step pending, one step performs it on the state without it. -/
theorem step_of_pending {s : State} {hd : HostStep} {rest : List HostStep} (h : s.pending = hd :: rest) :
    step s = runHostStep hd (s.setPending rest) := by
  simp [step, hostStep, h]

/-- Issuing a word that decodes runs its operation (20_memory.md R47). -/
theorem step_request {s : State} {w : RequestWord} {i : Instr} {rest : List HostStep} (h : s.pending = .request w :: rest)
    (hd : decode w = .ok i) : step s = exec i (s.setPending rest) := by
  simp [step_of_pending h, runHostStep, hostRequest, hd]

/-- A call whose parameter is in range issues the EN word next (41_encode.md R85). -/
theorem step_callEncode {s : State} {cmd : Byte} {p : Int} {rest : List HostStep} (h : s.pending = .callEncode cmd p :: rest)
    (hp : paramInRange p = true) :
    step s = .next (s.setPending (.request (encode (.encode cmd (BitVec.ofInt 16 p))) :: rest)) := by
  simp [step_of_pending h, runHostStep, hostCallEncode, hp, State.performNext, State.setPending]

/-- Driving the side input (10_state.md R30). -/
theorem step_drive {s : State} {buf : List Byte} {rest : List HostStep} (h : s.pending = .drive buf :: rest) :
    step s = .next ((s.setPending rest).driveBuf buf) := step_of_pending h

/-- The write call hands over the frame on the port (44_host_compositions.md R120). -/
theorem step_write {s : State} {rest : List HostStep} (h : s.pending = .write :: rest) :
    step s = .next ((s.setPending rest).writeBytes s.encFrame.toList) := step_of_pending h

/-- The wait has no effect (70_reset_and_hazards.md R159). -/
theorem step_wait {s : State} {d : Nat} {rest : List HostStep} (h : s.pending = .wait d :: rest) :
    step s = .next (s.setPending rest) := step_of_pending h

/-- After the availability report the host goes on as it says (44_host_compositions.md R122). -/
theorem step_checkAvail {s : State} {rest : List HostStep} (h : s.pending = .checkAvail :: rest) :
    step s = .next (s.afterReport.setPending (afterAvail s.availReport ++ rest)) := step_of_pending h

/-- A read drives its bytes on the side input and asks DECODE of them (44_host_compositions.md R122). -/
theorem step_read {s : State} {n : Nat} {rest : List HostStep} (h : s.pending = .read n :: rest) :
    step s = .next (s.afterRead.setPending (.drive (s.readResult n) :: .request (encode (.decode true)) :: rest)) :=
  step_of_pending h

/-- The host keeps what it takes from the ports. -/
theorem step_take {s : State} {what : Take} {rest : List HostStep} (h : s.pending = .take what :: rest) :
    step s = .next ((s.setPending rest).keep (s.takeValue what)) := step_of_pending h

end Sys2Proof.Machine
end

