-- ==== Sys2Proof/Laws/Runs.lean ====
section
/-! SUPPORT. Several steps, one at a time. -/

namespace Sys2Proof.Machine

/-- A run goes on from the state its first step answers. -/
theorem runSteps_succ {s t : State} (k : Nat) (h : step s = .next t) : runSteps (k + 1) s = runSteps k t := by
  simp [runSteps, h]

/-- The run of the host's interface is this run. -/
theorem core_run_eq (k : Nat) (s : State) : Host.Core.run core k s = runSteps k s := by
  induction k generalizing s with
  | zero => rfl
  | succ k ih =>
    cases h : step s with
    | next t =>
      rw [runSteps_succ k h, ← ih t]
      have h' : core.step s = .next t := h
      simp [Host.Core.run, h']
    | fault r => cases r
    | refused r =>
      have h' : core.step s = .refused r := h
      simp only [Host.Core.run, runSteps, h, h']
      rfl

end Sys2Proof.Machine
end

