-- ==== Sys2Proof/Tests/Slice0.lean ====
section
/-! SUPPORT. Tests of the model against the spec's own words and vectors (95_test_vectors.md), and one witness per statement
that its hypotheses can be met. Expected values are the spec's, never the model's. -/

namespace Sys2Proof.Tests
open Sys2Proof.Machine

/-- A small concrete state: every port zero, nothing pending. -/
def blank : State where
  encFrame := Vector.replicate 10 0#8
  ckSum := 0#16
  decRes := .noData
  decBuf := []
  pending := []
  kept := []
  written := []
  availReports := []
  readData := []
  draws := 0

/-- The next state of an outcome. -/
def after : Host.Outcome State Fault Refusal → Option State
  | .next s => some s
  | .fault _ => none
  | .refused _ => none

/-- The refusal of an outcome. -/
def why : Host.Outcome State Fault Refusal → Option Refusal
  | .next _ => none
  | .fault _ => none
  | .refused r => some r

/-- The base frame F of 95_test_vectors.md section 2.3 (EN1). -/
def frameF : List Byte := [0x7E#8, 0xFF#8, 0x06#8, 0x06#8, 0x00#8, 0x00#8, 0x1E#8, 0xFE#8, 0xD7#8, 0xEF#8]

/-- DECODE with data available, of a buffer, on the small state. -/
def decodeOf (buf : List Byte) : Option DecResult := (after (exec (.decode true) { blank with decBuf := buf })).map (·.decRes)

/-! Well-formedness: an ill-formed term for each check, and that it is refused. -/

theorem test_wf_op_reserved : requestWellFormed 0x3000000#26 = false := by decide
theorem test_wf_reserved_bit : requestWellFormed 0x2810000#26 = false := by decide
theorem test_wf_words_accepted :
    requestWellFormed 0x0106001E#26 = true ∧ requestWellFormed 0x0006001E#26 = true ∧ requestWellFormed 0x2800000#26 = true := by
  decide
theorem test_wf_param_wide : paramInRange 0x10000 = false ∧ paramInRange (-1) = false := by decide
theorem test_wf_param_ends : paramInRange 0 = true ∧ paramInRange 0xFFFF = true := by decide

/-! Request words written out bit by bit from 30_encoding.md R68, one per operation: op, then the fields. -/

theorem test_decode_checksum : decode (0b00_00000110_00000000_00011110#26) = .ok (.checksum 0x06#8 0x00#8 0x1E#8) := by decide
theorem test_decode_encode : decode (0b01_00001111_00000001_00001010#26) = .ok (.encode 0x0F#8 0x010A#16) := by decide
theorem test_decode_decode_avail : decode (0b10_1_0000000_00000000_00000000#26) = .ok (.decode true) := by decide
theorem test_decode_decode_none : decode (0b10_0_0000000_00000000_00000000#26) = .ok (.decode false) := by decide
theorem test_decode_reserved_op : decode (0b11_0_0000000_00000000_00000000#26) = .error .reservedRequest := by decide
theorem test_decode_reserved_bit : decode (0b10_1_0000000_00000000_00000001#26) = .error .reservedRequest := by decide
theorem test_table_word : decodeTableWord 32 0x010F010A = some (.encode 0x0F#8 0x010A#16) := by decide
theorem test_table_word_wide : decodeTableWord 32 0x04000000 = none := by decide

/-! CHECKSUM: CK12 (a carry kept) and CK7 (first value with high byte 0xFD). -/

theorem test_checksum_carry : (after (exec (.checksum 0xFF#8 0xFF#8 0x01#8) blank)).map (·.ckSum) = some 0xFCFC#16 := by decide
theorem test_checksum_high_byte : (after (exec (.checksum 0xFC#8 0x00#8 0x00#8) blank)).map (·.ckSum) = some 0xFDFF#16 := by decide

/-! ENCODE: EN2 (two different parameter bytes) and EN9 (delimiter values, no escaping). -/

theorem test_encode_playff : (after (exec (.encode 0x0F#8 0x010A#16) blank)).map (·.encFrame.toList) =
    some [0x7E#8, 0xFF#8, 0x06#8, 0x0F#8, 0x00#8, 0x01#8, 0x0A#8, 0xFE#8, 0xE1#8, 0xEF#8] := by decide
theorem test_encode_delimiters : (after (exec (.encode 0x7E#8 0xEF7E#16) blank)).map (·.encFrame.toList) =
    some [0x7E#8, 0xFF#8, 0x06#8, 0x7E#8, 0x00#8, 0xEF#8, 0x7E#8, 0xFD#8, 0x10#8, 0xEF#8] := by decide

/-! DECODE: DV22 (both payload bytes differ), and the failures DV16, DV12, DV6, DV2. -/

theorem test_decode_parsed :
    decodeOf [0x7E#8, 0xFF#8, 0x06#8, 0x42#8, 0x00#8, 0x02#8, 0x01#8, 0xFE#8, 0xB6#8, 0xEF#8] =
      some (.parsed 0x42#8 0x01#8 0x0201#16) := by decide
theorem test_decode_failures :
    decodeOf [0x00#8, 0xFF#8, 0x06#8, 0x06#8, 0x00#8, 0x00#8, 0x1E#8, 0xFE#8, 0xD6#8, 0xEF#8] = some .framing ∧
    decodeOf [0x7E#8, 0xFF#8, 0x06#8, 0x06#8, 0x00#8, 0x00#8, 0x1E#8, 0x00#8, 0x00#8, 0xEF#8] = some .checksumMismatch ∧
    decodeOf (frameF ++ [0x00#8]) = some .framing ∧
    (after (exec (.decode false) { blank with decBuf := frameF })).map (·.decRes) = some .noData := by decide

/-! The host's acts, one step each. -/

theorem test_step_from_reset :
    (after (step (State.reset.withFetchWord 32 0x00FFFFFF))).map (·.ckSum) = some 0xFBFE#16 := by decide
theorem test_step_reserved : why (step (blank.withFetchWord 32 0x02810000)) = some .reservedRequest := by decide
theorem test_step_wide_param : why (step { blank with pending := [.callEncode 0x06#8 0x10000] }) = some .paramOutOfRange := by
  decide
theorem test_step_write :
    (after (step { blank with encFrame := frameOf 0x06#8 0x001E#16, pending := [.write] })).map (·.written) = some [frameF] := by
  decide
theorem test_step_poll_no_data :
    (after (step { blank with pending := pollSteps, availReports := [false] })).map (·.pending) =
      some [.drive [], .request 0x2000000#26, .take .poll] := by decide
theorem test_step_read_short :
    (after (step { blank with pending := [.read 10], readData := [[0x7E#8, 0xFF#8, 0x06#8, 0x3D#8]] })).map (·.pending) =
      some [.drive [0x7E#8, 0xFF#8, 0x06#8, 0x3D#8], .request 0x2800000#26] := by decide
theorem test_assemble_playff : assemble (.playff 1#8 10#8) = [.callEncode 0x0F#8 0x010A, .take .frame] := by decide

/-! Witnesses: for each statement with hypotheses, concrete values that meet them. -/

theorem witness_DecodeOfEncodeIsInstr : (Instr.checksum 0x06#8 0x00#8 0x1E#8).wellFormed = true := by decide
theorem witness_EncodeOfDecodeIsWord : decode 0x0106001E#26 = .ok (.encode 0x06#8 0x001E#16) := by decide
theorem witness_RequestWordDecodingIsTotal :
    (0x0FFFFFF#26).extractLsb' 24 2 = 0b00#2 ∧ (0x1000000#26).extractLsb' 24 2 = 0b01#2 ∧
    ((0x2800000#26).extractLsb' 24 2 = 0b10#2 ∧ (0x2800000#26).extractLsb' 0 23 = 0#23) ∧
    (0x3FFFFFF#26).extractLsb' 24 2 = 0b11#2 ∧
    ((0x2400000#26).extractLsb' 24 2 = 0b10#2 ∧ (0x2400000#26).extractLsb' 0 23 ≠ 0#23) := by decide
theorem witness_StepRunsTheIssuedOperation :
    ({ blank with pending := [.request 0x2800000#26] } : State).pending = .request 0x2800000#26 :: [] ∧
    decode 0x2800000#26 = .ok (.decode true) := by decide
theorem witness_ReservedRequestIsRefused :
    (blank.setPending [.request 0x3000000#26]).pending = .request 0x3000000#26 :: [] ∧
    (0x3000000#26).extractLsb' 24 2 = 0b11#2 ∧
    (blank.setPending [.request 0x2000001#26]).pending = .request 0x2000001#26 :: [] ∧
    (0x2000001#26).extractLsb' 24 2 = 0b10#2 ∧ (0x2000001#26).extractLsb' 0 23 ≠ 0#23 := by decide
theorem witness_NothingIssuedNothingChanges : blank.pending = [] := rfl
theorem witness_ChecksumDrivesItsResult : (0x006001E#26).extractLsb' 24 2 = 0b00#2 := by decide
theorem witness_ChecksumRange :
    0xFF + 0x06 + (0x00#8).toNat + 0x00 + (0x00#8).toNat + (0x00#8).toNat = 0x105 ∧
    0xFF + 0x06 + (0xFB#8).toNat + 0x00 + (0x00#8).toNat + (0x00#8).toNat = 0x200 ∧
    0xFF + 0x06 + (0xFC#8).toNat + 0x00 + (0x00#8).toNat + (0x00#8).toNat = 0x201 ∧
    0xFF + 0x06 + (0xFF#8).toNat + 0x00 + (0xFC#8).toNat + (0x00#8).toNat = 0x300 ∧
    0xFF + 0x06 + (0xFF#8).toNat + 0x00 + (0xFD#8).toNat + (0x00#8).toNat = 0x301 ∧
    0xFF + 0x06 + (0xFF#8).toNat + 0x00 + (0xFF#8).toNat + (0xFD#8).toNat = 0x400 ∧
    0xFF + 0x06 + (0xFF#8).toNat + 0x00 + (0xFF#8).toNat + (0xFE#8).toNat = 0x401 ∧
    0xFF + 0x06 + (0xFF#8).toNat + 0x00 + (0xFF#8).toNat + (0xFF#8).toNat = 0x402 := by decide
theorem witness_ChecksumLaws :
    (0x01#8).toNat + (0x02#8).toNat + (0x03#8).toNat = (0x02#8).toNat + (0x02#8).toNat + (0x02#8).toNat ∧
    (0xFB#8).toNat + (0x00#8).toNat + (0x00#8).toNat = 0xFB ∧ (0xFC#8).toNat + (0x00#8).toNat + (0x00#8).toNat = 0xFC := by
  decide
theorem witness_EncodeDrivesTheFrame : (0x106001E#26).extractLsb' 24 2 = 0b01#2 := by decide
theorem witness_EncodedFrameFixedParts : ∃ c d : Byte, c = 0x7E#8 ∧ d = 0xEF#8 := ⟨_, _, rfl, rfl⟩
theorem witness_WideParameterIsRefused :
    (blank.setPending [.callEncode 0x06#8 0xFFFF]).pending = .callEncode 0x06#8 0xFFFF :: [] ∧
    (0 ≤ (0 : Int) ∧ (0 : Int) < 0x10000) ∧ (0 ≤ (0xFFFF : Int) ∧ (0xFFFF : Int) < 0x10000) ∧
    (-1 : Int) < 0 ∧ (0x10000 : Int) ≤ 0x10000 := by decide
theorem witness_FramingResults :
    (blank.driveBuf []).decBuf.length ≠ 10 ∧ (blank.driveBuf (frameF.take 9)).decBuf.length ≠ 10 ∧
    (blank.driveBuf (frameF ++ [0x00#8])).decBuf.length ≠ 10 ∧ (0x7F#8 : Byte) ≠ 0x7E#8 ∧ (0xEE#8 : Byte) ≠ 0xEF#8 ∧
    (blank.driveBuf [0x7F#8, 0#8, 0#8, 0#8, 0#8, 0#8, 0#8, 0#8, 0#8, 0xEE#8]).decBuf =
      [0x7F#8, 0#8, 0#8, 0#8, 0#8, 0#8, 0#8, 0#8, 0#8, 0xEE#8] := by decide
theorem witness_ChecksumMismatchResult :
    checksum 0x06#8 0x00#8 0x1E#8 ≠ (0xFE#8 : Byte) ++ (0xD6#8 : Byte) ∧
    (blank.driveBuf [0x7E#8, 0xFF#8, 0x06#8, 0x06#8, 0x00#8, 0x00#8, 0x1E#8, 0xFE#8, 0xD6#8, 0xEF#8]).decBuf =
      [0x7E#8, 0xFF#8, 0x06#8, 0x06#8, 0x00#8, 0x00#8, 0x1E#8, 0xFE#8, 0xD6#8, 0xEF#8] := by decide
theorem witness_ParsedResult :
    checksum 0x06#8 0x00#8 0x1E#8 = (0xFE#8 : Byte) ++ (0xD7#8 : Byte) ∧
    (blank.driveBuf [0x7E#8, 0x00#8, 0x08#8, 0x06#8, 0x01#8, 0x00#8, 0x1E#8, 0xFE#8, 0xD7#8, 0xEF#8]).decBuf =
      [0x7E#8, 0x00#8, 0x08#8, 0x06#8, 0x01#8, 0x00#8, 0x1E#8, 0xFE#8, 0xD7#8, 0xEF#8] := by decide
theorem witness_ChecksumUnitIsShared :
    (blank.driveBuf frameF).decBuf = [0x7E#8, 0xFF#8, 0x06#8, 0x06#8, 0x00#8, 0x00#8, 0x1E#8, 0xFE#8, 0xD7#8, 0xEF#8] := by
  decide
theorem witness_DecodeReadSet :
    (([] : List Byte).length ≠ 10 ∧ (frameF ++ [0#8]).length ≠ 10) ∧
    ([0x7F#8, 0#8, 0#8, 0#8, 0#8, 0#8, 0#8, 0#8, 0#8, 0xEF#8][0]? ≠ some 0x7E#8) ∧
    ((frameF.set 1 0x00#8).length = 10 ∧ ∀ k, k = 0 ∨ k = 3 ∨ k = 5 ∨ k = 6 ∨ k = 7 ∨ k = 8 ∨ k = 9 →
      frameF[k]? = (frameF.set 1 0x00#8)[k]?) := by
  refine ⟨by decide, by decide, by decide, ?_⟩
  rintro k (rfl | rfl | rfl | rfl | rfl | rfl | rfl) <;> rfl
/-- DECODE of the base frame on the small state is PARSED (DV1). -/
theorem exec_decode_frameF : exec (.decode true) { blank with decBuf := frameF } =
    .next { blank with decBuf := frameF, decRes := .parsed 0x06#8 0x1E#8 0x001E#16 } := by
  rw [exec_decode, show decodeFrame true ({ blank with decBuf := frameF } : State).decBuf =
    .parsed 0x06#8 0x1E#8 0x001E#16 by decide]
  rfl
theorem witness_AcceptedPattern : ∃ (s : State) (t v : Byte) (p : Word16),
    exec (.decode true) s = .next { s with decRes := .parsed t v p } := ⟨_, _, _, _, exec_decode_frameF⟩
theorem witness_SingleBitFlips : ∃ (s : State) (t v : Byte) (p : Word16),
    exec (.decode true) s = .next { s with decRes := .parsed t v p } ∧ s.decBuf[0]? = some 0x7E#8 ∧ s.decBuf[3]? = some 0x06#8 ∧
    s.decBuf[8]? = some 0xD7#8 ∧ s.decBuf[4]? = some 0x00#8 ∧ s.decBuf[9]? = some 0xEF#8 ∧ 7 < 8 :=
  ⟨_, _, _, _, exec_decode_frameF, rfl, rfl, rfl, rfl, rfl, by decide⟩
theorem witness_CompensatingChangesAndDeadChecksums :
    (checksum 0x06#8 0x00#8 0x1E#8 = (0xFE#8 : Byte) ++ (0xD7#8 : Byte) ∧
      (0x06#8).toNat + (0x00#8).toNat + (0x1E#8).toNat = (0x06#8).toNat + (0x01#8).toNat + (0x1D#8).toNat ∧
      (blank.driveBuf [0x7E#8, 0xFF#8, 0x06#8, 0x06#8, 0x00#8, 0x01#8, 0x1D#8, 0xFE#8, 0xD7#8, 0xEF#8]).decBuf =
        [0x7E#8, 0xFF#8, 0x06#8, 0x06#8, 0x00#8, 0x01#8, 0x1D#8, 0xFE#8, 0xD7#8, 0xEF#8]) ∧
    (0xFB#8).toNat * 256 + (0xFD#8).toNat < 0xFBFE ∧ 0xFEFB < (0xFE#8).toNat * 256 + (0xFC#8).toNat := by decide
theorem witness_ResultTagCodes : (DecResult.parsed 1#8 2#8 3#16).code = (DecResult.parsed 4#8 5#8 6#16).code := rfl
theorem witness_OperationsArePure :
    (blank.driveBuf frameF).decBuf = ((blank.driveSum 1#16).driveBuf frameF).decBuf := by decide
theorem witness_OperationsOfDifferentKindsCommute :
    Instr.checksum 1#8 2#8 3#8 = .checksum 1#8 2#8 3#8 ∧ Instr.encode 1#8 2#16 = .encode 1#8 2#16 ∧
    Instr.decode true = .decode true := by decide
theorem witness_StepStopsOnlyOnInterfaceRefusals :
    requestWellFormed 0x3000000#26 = false ∧
    why (step (blank.setPending [.request 0x3000000#26])) = some .reservedRequest ∧
    why (step (blank.setPending [.callEncode 0x06#8 (-1)])) = some .paramOutOfRange ∧
    (after (step (blank.setPending [.callEncode 0x06#8 0xFFFF]))).isSome = true := by decide
theorem witness_SendIsOneEncodeAndOneWrite :
    (blank.setPending (assemble (.send 0x06#8 ((0x001E#16).toNat : Int)) ++ [.wait 0])).pending =
      assemble (.send 0x06#8 ((0x001E#16).toNat : Int)) ++ [.wait 0] := rfl
theorem witness_FeedbackPoll :
    (blank.setPending (assemble .poll ++ [])).pending = assemble .poll ++ [] ∧
    ({ blank.setPending (assemble .poll ++ []) with availReports := [false] } : State).availReport = false ∧
    ({ blank.setPending (assemble .poll ++ []) with availReports := [true] } : State).availReport = true := by decide
theorem witness_StatusQuery :
    (blank.setPending (querySteps 0x42#8 5 ++ [])).pending = querySteps 0x42#8 5 ++ [] ∧
    ({ blank.setPending (querySteps 0x42#8 5 ++ []) with availReports := [false] } : State).availReport = false ∧
    ({ blank.setPending (querySteps 0x42#8 5 ++ []) with availReports := [true] } : State).availReport = true := by decide
theorem witness_TransportReadIsFreeUpToItsBound : frameF.length ≤ 10 ∧ ([] : List Byte).length ≤ 0 := by decide
theorem witness_OnlyTheHostWritesTheTransport :
    step (blank.setPending [.write]) = .next (blank.writeBytes blank.encFrame.toList) := rfl
theorem witness_BlockActsOnlyWhenIssued :
    step (blank.setPending [.wait 3]) = .next blank ∧
    ∀ w rest, (blank.setPending [.wait 3]).pending ≠ .request w :: rest := ⟨rfl, by intro w rest; simp⟩
/-- The wire invariant of the small state once it has written the base frame and holds a send. -/
theorem wireInv_example : WireInv { blank with written := [frameF], pending := assemble (.send 0x06#8 0x1E) } := by
  refine ⟨?_, false, by simp, by decide⟩
  intro bytes h
  have h : bytes = frameF := by simpa using h
  exact ⟨0x06#8, 0x001E#16, by rw [h]; decide⟩
theorem witness_WireInvariantKept :
    WireInv { blank with written := [frameF], pending := assemble (.send 0x06#8 0x1E) } ∧
    (after (step { blank with written := [frameF], pending := assemble (.send 0x06#8 0x1E) })).isSome = true :=
  ⟨wireInv_example, by decide⟩
theorem witness_AssembledProgramsMeetTheWireInvariant : WireInv blank ∧ blank.pending = [] :=
  ⟨⟨by simp [WroteFrames, blank], false, by simp, by decide⟩, rfl⟩
theorem witness_WrittenBytesParse :
    WireInv { blank with written := [frameF], pending := assemble (.send 0x06#8 0x1E) } ∧ frameF ∈ [frameF] :=
  ⟨wireInv_example, by simp⟩

end Sys2Proof.Tests
end

section
/-! Proofs of the statements of 10_state.md: the request word read back, what an operation changes, and what a step leaves
unchanged. -/

namespace Sys2Proof

/-! A field of a request word read back (30_encoding.md R68): from its own place it is the value put there, from a place
that shares no bit with it, zero. -/

theorem extractLsb'_fieldAt_same {n lo : Nat} (v : BitVec n) (h : lo + n ≤ 26) : (fieldAt n v lo).extractLsb' lo n = v := by
  apply BitVec.eq_of_getLsbD_eq
  intro k hk
  simp [fieldAt, hk, show lo + k < 26 by omega]

theorem extractLsb'_fieldAt_disjoint {n lo a m : Nat} (v : BitVec n) (h : a + m ≤ lo ∨ lo + n ≤ a) :
    (fieldAt n v lo).extractLsb' a m = 0#m := by
  apply BitVec.eq_of_getLsbD_eq
  intro k hk
  obtain hbelow | habove := h
  · simp [fieldAt, show a + k < lo by omega]
  · simp [fieldAt, BitVec.getLsbD_of_ge v (a + k - lo) (by omega)]

/-- The decoder reads back the operation of every request word (30_encoding.md R67 to R69). -/
theorem decode_encode (i : Instr) : decode (encode i) = .ok i := by
  cases i with
  | checksum b3 ph pl =>
    simp (disch := omega) [decode, opField, byteField2, byteField1, byteField0, encode, BitVec.extractLsb'_or,
      extractLsb'_fieldAt_same, extractLsb'_fieldAt_disjoint]
  | encode cmd param =>
    simp (disch := omega) [decode, opField, byteField2, paramField, encode, BitVec.extractLsb'_or,
      extractLsb'_fieldAt_same, extractLsb'_fieldAt_disjoint]
  | decode avail => cases avail <;> decide

/-- A request word given as a number is the word itself: its 26 bits are below the 32 the table numbers. -/
theorem requestOfNat_toNat (w : RequestWord) : requestOfNat (w.toNat % 2 ^ 32) = w := by
  have hw : w.toNat < 2 ^ 26 := w.isLt
  rw [Nat.mod_eq_of_lt (by omega), requestOfNat, if_pos hw, BitVec.ofNat_toNat, BitVec.setWidth_eq]

namespace Machine

/-- Placing a request word puts it before what the host has pending. -/
theorem withFetchWord_toNat (s : State) (w : RequestWord) :
    s.withFetchWord 32 w.toNat = s.setPending (.request w :: s.pending) := by
  simp only [State.withFetchWord, placeRequest, requestOfNat_toNat]
  rfl

/-- With nothing pending a step changes nothing (10_state.md R20). -/
theorem step_of_pending_nil {s : State} (h : s.pending = []) : step s = .next s := by
  simp [step, hostStep, h]

/-! What an operation does to the ports (10_state.md R35): it completes, its output depends on its own inputs, and every other
field stays. -/

theorem exec_completes (i : Instr) (s : State) : ∃ t, exec i s = .next t := by
  cases i with
  | checksum b3 ph pl => exact ⟨_, exec_checksum b3 ph pl s⟩
  | encode cmd param => exact ⟨_, exec_encode cmd param s⟩
  | decode avail => exact ⟨_, exec_decode avail s⟩

theorem onlyOwnPort_of_exec {i : Instr} {s t : State} (h : exec i s = .next t) : onlyOwnPort i s t := by
  cases i <;> cases h <;> rfl

/-- Only DECODE reads the state, and of it only the input buffer. -/
theorem sameOwnOutput_of_exec {i : Instr} {s s' t t' : State} (hbuf : s.decBuf = s'.decBuf)
    (h : exec i s = .next t) (h' : exec i s' = .next t') : sameOwnOutput i t t' := by
  cases i with
  | checksum b3 ph pl => cases h; cases h'; rfl
  | encode cmd param => cases h; cases h'; rfl
  | decode avail => cases h; cases h'; exact congrArg (decodeFrame avail) hbuf

/-! Which result a code on `dec_res` stands for (10_state.md R32). -/

theorem DecResult.code_eq_parsed {r : DecResult} : r.code = 0b00#2 ↔ ∃ t v p, r = .parsed t v p := by
  cases r <;> simp [DecResult.code]

theorem DecResult.code_eq_framing {r : DecResult} : r.code = 0b01#2 ↔ r = .framing := by
  cases r <;> simp [DecResult.code]

theorem DecResult.code_eq_checksumMismatch {r : DecResult} : r.code = 0b10#2 ↔ r = .checksumMismatch := by
  cases r <;> simp [DecResult.code]

theorem DecResult.code_eq_noData {r : DecResult} : r.code = 0b11#2 ↔ r = .noData := by
  cases r <;> simp [DecResult.code]

/-! The payload ports (10_state.md R33). -/

theorem DecResult.ports_eq_none_of_failure {r : DecResult} (h : r = .framing ∨ r = .checksumMismatch ∨ r = .noData) :
    r.typePort = none ∧ r.valuePort = none ∧ r.paramPort = none := by
  obtain rfl | rfl | rfl := h <;> exact ⟨rfl, rfl, rfl⟩

theorem DecResult.ports_eq_some_iff {r : DecResult} {t v : Byte} {p : Word16} :
    r.typePort = some t ∧ r.valuePort = some v ∧ r.paramPort = some p ↔ r = .parsed t v p := by
  cases r <;> simp [DecResult.typePort, DecResult.valuePort, DecResult.paramPort]

end Machine

/-- Settles O7: the placed word is next, and decodes to the operation it encodes. -/
theorem placedRequestRunsNext : Obligations.PlacedRequestRunsNext := by
  intro s i
  rw [Machine.withFetchWord_toNat]
  exact Machine.step_request rfl (decode_encode i)

/-- Settles O35, from what an operation leaves unchanged and what its output depends on. -/
theorem operationsArePure : Obligations.OperationsArePure := by
  intro i s s' hbuf
  obtain ⟨t, h⟩ := Machine.exec_completes i s
  obtain ⟨t', h'⟩ := Machine.exec_completes i s'
  exact ⟨t, t', h, h', Machine.sameOwnOutput_of_exec hbuf h h', Machine.onlyOwnPort_of_exec h,
    Machine.onlyOwnPort_of_exec h'⟩

/-- Settles O45, over the acts a step can perform: each but a request updates fields of the host and the transport only. -/
theorem blockActsOnlyWhenIssued : Obligations.BlockActsOnlyWhenIssued := by
  intro s t h hno
  obtain ⟨-, rfl⟩ | ⟨rest, ⟨w, i, hp, -, -⟩ | hact⟩ := Machine.step_cases h
  · exact ⟨rfl, rfl, rfl⟩
  · exact absurd hp (hno w rest)
  · obtain ⟨cmd, p, -, -, rfl⟩ | ⟨buf, -, rfl⟩ | ⟨-, rfl⟩ | ⟨d, -, rfl⟩ | ⟨-, rfl⟩ | ⟨n, -, rfl⟩ | ⟨what, -, rfl⟩ := hact <;>
      simp

/-- Settles O5: the request is taken off, and the step is the operation itself. -/
theorem stepRunsTheIssuedOperation : Obligations.StepRunsTheIssuedOperation :=
  fun _ _ _ _ hp hd => Machine.step_request hp hd

/-- Settles O8: no act is performed, so the state stays. -/
theorem nothingIssuedNothingChanges : Obligations.NothingIssuedNothingChanges :=
  fun _ hp => Machine.step_of_pending_nil hp

/-- Settles O32: a code gives back its result, but for the payload of PARSED. -/
theorem resultTagCodes : Obligations.ResultTagCodes := by
  refine ⟨fun _ _ _ => rfl, rfl, rfl, rfl, fun r r' h => ?_⟩
  cases r with
  | parsed t v p =>
    obtain ⟨t', v', p', hr'⟩ := Machine.DecResult.code_eq_parsed.mp h.symm
    exact .inr ⟨t, v, p, t', v', p', rfl, hr'⟩
  | framing => exact .inl (Machine.DecResult.code_eq_framing.mp h.symm).symm
  | checksumMismatch => exact .inl (Machine.DecResult.code_eq_checksumMismatch.mp h.symm).symm
  | noData => exact .inl (Machine.DecResult.code_eq_noData.mp h.symm).symm

/-- Settles O33: PARSED alone puts its payload on the ports, and a result without PARSED puts nothing there. -/
theorem payloadPortsOnParsedOnly : Obligations.PayloadPortsOnParsedOnly := by
  refine fun r t v p => ⟨Machine.DecResult.ports_eq_some_iff.symm, Machine.DecResult.ports_eq_none_of_failure, ?_⟩
  rintro ⟨htype, -, -⟩
  cases r with
  | parsed t' v' p' => cases htype
  | framing => exact .inl rfl
  | checksumMismatch => exact .inr (.inl rfl)
  | noData => exact .inr (.inr rfl)

end Sys2Proof
end

section
/-! Proofs of the statements of 20_memory.md: operations done again, and operations done in either order. -/

namespace Sys2Proof

namespace Machine

/-! An operation done again: it finds the input buffer it had, so it drives the value its port already holds. -/

theorem decBuf_eq_of_onlyOwnPort {i : Instr} {s t : State} (h : onlyOwnPort i s t) : t.decBuf = s.decBuf := by
  cases i with
  | checksum b3 ph pl => rw [show t = s.driveSum t.ckSum from h, State.driveSum_decBuf]
  | encode cmd param => rw [show t = s.driveFrame t.encFrame from h, State.driveFrame_decBuf]
  | decode avail => rw [show t = s.driveResult t.decRes from h, State.driveResult_decBuf]

/-- A change of the own port alone, to the value it had, is no change. -/
theorem eq_of_onlyOwnPort_of_sameOwnOutput {i : Instr} {s t : State} (hport : onlyOwnPort i s t)
    (hout : sameOwnOutput i s t) : s = t := by
  cases i with
  | checksum b3 ph pl => exact (congrArg s.driveSum hout).trans hport.symm
  | encode cmd param => exact (congrArg s.driveFrame hout).trans hport.symm
  | decode avail => exact (congrArg s.driveResult hout).trans hport.symm

theorem exec_again {i : Instr} {s t : State} (h : exec i s = .next t) : exec i t = .next t := by
  obtain ⟨u, hu⟩ := exec_completes i t
  have hbuf : s.decBuf = t.decBuf := (decBuf_eq_of_onlyOwnPort (onlyOwnPort_of_exec h)).symm
  have htu : t = u := eq_of_onlyOwnPort_of_sameOwnOutput (onlyOwnPort_of_exec hu) (sameOwnOutput_of_exec hbuf h hu)
  rw [hu, ← htu]

/-! Two output ports can be driven in either order (10_state.md R28 to R30). -/

theorem State.driveSum_driveFrame (s : State) (f : Frame) (v : Word16) :
    (s.driveFrame f).driveSum v = (s.driveSum v).driveFrame f := rfl

theorem State.driveSum_driveResult (s : State) (r : DecResult) (v : Word16) :
    (s.driveResult r).driveSum v = (s.driveSum v).driveResult r := rfl

theorem State.driveFrame_driveResult (s : State) (r : DecResult) (f : Frame) :
    (s.driveResult r).driveFrame f = (s.driveFrame f).driveResult r := rfl

end Machine

/-- Settles O36: the second run finds the input of the first. -/
theorem operationsAreIdempotent : Obligations.OperationsAreIdempotent := by
  intro i s
  obtain ⟨t, h⟩ := Machine.exec_completes i s
  exact ⟨t, h, Machine.exec_again h⟩

open Machine in
/-- Settles O37, pair by pair: each drives a port the other neither reads nor drives. -/
theorem operationsOfDifferentKindsCommute : Obligations.OperationsOfDifferentKindsCommute := by
  intro b3 ph pl cmd param avail i j s hkinds
  obtain ⟨rfl, rfl | rfl⟩ | ⟨rfl, rfl⟩ := hkinds
  · refine ⟨_, _, _, exec_checksum b3 ph pl s, exec_encode cmd param _, exec_encode cmd param s, ?_⟩
    rw [exec_checksum, State.driveSum_driveFrame]
  · refine ⟨_, _, _, exec_checksum b3 ph pl s, exec_decode avail _, exec_decode avail s, ?_⟩
    rw [exec_checksum, State.driveSum_driveResult, State.driveSum_decBuf]
  · refine ⟨_, _, _, exec_encode cmd param s, exec_decode avail _, exec_decode avail s, ?_⟩
    rw [exec_encode, State.driveFrame_driveResult, State.driveFrame_decBuf]

end Sys2Proof
end

section
/-! Proofs of the statements of 30_encoding.md: the request word in both directions, the outbound frame on the bus, and the
inbound pattern DECODE accepts. -/

namespace Sys2Proof

/-! What the decoder reads from a request word, by its operation select (30_encoding.md R69, R70). -/

theorem decode_of_opField_checksum {w : RequestWord} (h : opField w = 0b00#2) :
    decode w = .ok (.checksum (byteField2 w) (byteField1 w) (byteField0 w)) := by
  simp [decode, h]

theorem decode_of_opField_encode {w : RequestWord} (h : opField w = 0b01#2) :
    decode w = .ok (.encode (byteField2 w) (paramField w)) := by
  simp [decode, h]

theorem decode_of_opField_decode {w : RequestWord} (h : opField w = 0b10#2) (hr : reservedField w = 0#23) :
    decode w = .ok (.decode (availField w)) := by
  simp [decode, h, hr]

theorem decode_of_opField_reserved {w : RequestWord} (h : opField w = 0b11#2) : decode w = .error .reservedRequest := by
  simp [decode, h]

theorem decode_of_reservedField_ne {w : RequestWord} (h : opField w = 0b10#2) (hr : reservedField w ≠ 0#23) :
    decode w = .error .reservedRequest := by
  simp [decode, h, hr]

/-- Which words decode, and to what. -/
theorem decode_ok_cases {w : RequestWord} {i : Instr} (h : decode w = .ok i) :
    (opField w = 0b00#2 ∧ i = .checksum (byteField2 w) (byteField1 w) (byteField0 w)) ∨
    (opField w = 0b01#2 ∧ i = .encode (byteField2 w) (paramField w)) ∨
    (opField w = 0b10#2 ∧ reservedField w = 0#23 ∧ i = .decode (availField w)) := by
  unfold decode at h
  split at h
  · next hop => cases h; exact .inl ⟨hop, rfl⟩
  · split at h
    · next hop => cases h; exact .inr (.inl ⟨hop, rfl⟩)
    · split at h
      · next hop =>
        split at h
        · next hr => cases h; exact .inr (.inr ⟨hop, hr, rfl⟩)
        · cases h
      · cases h

/-! A request word put together again from its fields (30_encoding.md R68): two fields side by side are one wider field, and
the field of all 26 bits is the word. -/

theorem fieldAt_or_fieldAt {m n hi lo : Nat} (w : RequestWord) (h : hi = lo + n) :
    fieldAt m (w.extractLsb' hi m) hi ||| fieldAt n (w.extractLsb' lo n) lo =
      fieldAt (m + n) (w.extractLsb' lo (m + n)) lo := by
  apply BitVec.eq_of_getLsbD_eq
  intro k hk
  simp only [BitVec.getLsbD_or, Laws.RequestWord.getLsbD_fieldAt _ _ hk, BitVec.getLsbD_extractLsb']
  by_cases hlo : lo ≤ k
  · by_cases hhi : hi ≤ k
    · simp [hlo, hhi, show ¬ k - lo < n by omega, show k - lo < m + n ↔ k - hi < m by omega,
        show lo + (k - lo) = k by omega, show hi + (k - hi) = k by omega]
    · simp [hlo, hhi, show k - lo < n by omega, show k - lo < m + n by omega]
  · simp [hlo, show ¬ hi ≤ k by omega]

theorem fieldAt_extractLsb'_all (w : RequestWord) : fieldAt 26 (w.extractLsb' 0 26) 0 = w := by
  simp [fieldAt, BitVec.extractLsb'_eq_self]

theorem encode_checksum_fields {w : RequestWord} (h : opField w = 0b00#2) :
    encode (.checksum (byteField2 w) (byteField1 w) (byteField0 w)) = w := by
  rw [encode, ← h]
  simp (disch := omega) only [opField, byteField2, byteField1, byteField0, fieldAt_or_fieldAt]
  exact fieldAt_extractLsb'_all w

theorem encode_encode_fields {w : RequestWord} (h : opField w = 0b01#2) :
    encode (.encode (byteField2 w) (paramField w)) = w := by
  rw [encode, ← h]
  simp (disch := omega) only [opField, byteField2, paramField, fieldAt_or_fieldAt]
  exact fieldAt_extractLsb'_all w

/-- Bit 23 as a field of one bit. -/
theorem ofBool_availField (w : RequestWord) : BitVec.ofBool (availField w) = w.extractLsb' 23 1 := by
  apply BitVec.eq_of_getLsbD_eq
  intro k hk
  obtain rfl : k = 0 := by omega
  simp [availField]

theorem encode_decode_fields {w : RequestWord} (h : opField w = 0b10#2) (hr : reservedField w = 0#23) :
    encode (.decode (availField w)) = w := by
  have hzero : fieldAt 23 (reservedField w) 0 = 0#26 := by simp [hr, fieldAt]
  rw [encode, ← h, ofBool_availField, ← BitVec.or_zero (x := _ ||| _), ← hzero]
  simp (disch := omega) only [opField, reservedField, fieldAt_or_fieldAt]
  exact fieldAt_extractLsb'_all w

namespace Machine

/-- Issuing a word that does not decode is refused (30_encoding.md R70). -/
theorem step_request_reserved {s : State} {w : RequestWord} {rest : List HostStep} (h : s.pending = .request w :: rest)
    (hd : decode w = .error .reservedRequest) : step s = .refused .reservedRequest := by
  simp [step_of_pending h, runHostStep, hostRequest, hd]

/-! The bytes of a parameter (30_encoding.md R63). -/

theorem hiByte_toNat (v : Word16) : (hiByte v).toNat = v.toNat >>> 8 := by
  have := v.isLt
  rw [hiByte, BitVec.extractLsb'_toNat, Nat.shiftRight_eq_div_pow, Nat.mod_eq_of_lt (by omega)]

theorem loByte_toNat (v : Word16) : (loByte v).toNat = v.toNat &&& 0xFF := by
  rw [loByte, BitVec.extractLsb'_toNat, Nat.shiftRight_zero]
  exact (Nat.and_two_pow_sub_one_eq_mod v.toNat 8).symm

/-- A word's two bytes put one after the other behind `x` are the word behind `x` (30_encoding.md R64). -/
theorem append_hiByte_append_loByte {n : Nat} (x : BitVec n) (v : Word16) :
    (x ++ hiByte v ++ loByte v : BitVec (n + 16)) = x ++ v := by
  rw [BitVec.append_assoc]
  exact congrArg (x ++ ·) (be16_bytes v)

theorem frameOf_five (cmd : Byte) (param : Word16) : (frameOf cmd param)[5] = hiByte param := by
  rw [frameOf, buildFrame_eq]
  rfl

theorem frameOf_six (cmd : Byte) (param : Word16) : (frameOf cmd param)[6] = loByte param := by
  rw [frameOf, buildFrame_eq]
  rfl

/-- The outbound pattern on the bus (30_encoding.md R61). -/
theorem frameBus_frameOf (cmd : Byte) (param : Word16) :
    frameBus (frameOf cmd param) =
      0x7EFF06#24 ++ cmd ++ 0x00#8 ++ param ++ checksum cmd (hiByte param) (loByte param) ++ 0xEF#8 := by
  have hstart : 0x7EFF06#24 = startByte ++ versionByte ++ lengthByte := by decide
  rw [frameOf, buildFrame_eq, ← append_hiByte_append_loByte _ param, ← append_hiByte_append_loByte _ (checksum _ _ _),
    hstart]
  rfl

/-! The mask of the 40 fixed bits blanks the command, the parameter and the checksum of the pattern, whatever they are
(30_encoding.md R61). -/

theorem outboundPattern_and_mask (cmd : Byte) (param chk : Word16) :
    (0x7EFF06#24 ++ cmd ++ 0x00#8 ++ param ++ chk ++ 0xEF#8) &&&
      (0xFFFFFF#24 ++ 0x00#8 ++ 0xFF#8 ++ 0x0000#16 ++ 0x0000#16 ++ 0xFF#8) = 0x7EFF06000000000000EF#80 := by
  simp only [BitVec.and_append, BitVec.and_zero]
  decide

theorem frameBus_frameOf_and_fixed (cmd : Byte) (param : Word16) :
    frameBus (frameOf cmd param) &&& 0xFFFFFF00FF00000000FF#80 = 0x7EFF06000000000000EF#80 := by
  rw [frameBus_frameOf]
  exact outboundPattern_and_mask cmd param _

/-- PARSED exactly on the inbound pattern (30_encoding.md R62). -/
theorem decodeFrame_eq_parsed_iff {buf : List Byte} {t v : Byte} {p : Word16} :
    decodeFrame true buf = .parsed t v p ↔
      ∃ x1 x2 x4 h : Byte, p = be16 h v ∧ buf = [0x7E#8, x1, x2, t, x4, h, v,
        hiByte (checksum t h v), loByte (checksum t h v), 0xEF#8] := by
  constructor
  · intro hparsed
    by_cases hlen : buf.length = 10
    · obtain ⟨b0, b1, b2, b3, b4, b5, b6, b7, b8, b9, rfl⟩ := eq_ten_of_length hlen
      rw [decodeFrame_ten] at hparsed
      split at hparsed
      · cases hparsed
      · next hends =>
        split at hparsed
        · cases hparsed
        · next hsum =>
          cases hparsed
          obtain ⟨rfl, rfl⟩ : b0 = 0x7E#8 ∧ b9 = 0xEF#8 := by simpa using hends
          exact ⟨b1, b2, b4, b5, rfl, by simp [not_not.mp hsum]⟩
    · rw [decodeFrame_badLength hlen] at hparsed
      cases hparsed
  · rintro ⟨x1, x2, x4, h, rfl, rfl⟩
    simp [decodeFrame_ten]

/-- What DECODE with data available drives, read off its next state. -/
theorem exec_decode_eq_next_iff {s : State} {r : DecResult} :
    exec (.decode true) s = .next { s with decRes := r } ↔ decodeFrame true s.decBuf = r := by
  rw [exec_decode]
  constructor
  · intro h
    injection h with h
    exact congrArg State.decRes h
  · rintro rfl
    rfl

/-- `(f << 8) | t` as a sum (30_encoding.md R75). -/
theorem folderTrack_eq (f t : Byte) : folderTrack f t = 256 * (f.toNat : Int) + (t.toNat : Int) := by
  rw [folderTrack, ← Nat.shiftLeft_add_eq_or_of_lt t.isLt, Nat.shiftLeft_eq]
  omega

end Machine

/-- Settles O1: the decoder reads back every field of the word. -/
theorem decodeOfEncodeIsInstr : Obligations.DecodeOfEncodeIsInstr :=
  fun i _ => decode_encode i

/-- Settles O2: the fields read from an accepted word, the reserved bits among them, cover its 26 bits. -/
theorem encodeOfDecodeIsWord : Obligations.EncodeOfDecodeIsWord := by
  intro w i h
  obtain ⟨hop, rfl⟩ | ⟨hop, rfl⟩ | ⟨hop, hr, rfl⟩ := decode_ok_cases h
  · exact encode_checksum_fields hop
  · exact encode_encode_fields hop
  · exact encode_decode_fields hop hr

open Machine in
/-- Settles O16: the ten bytes of the frame, joined offset by offset. -/
theorem frameBusPattern : Obligations.FrameBusPattern :=
  fun s cmd param => ⟨_, exec_encode cmd param s, frameBus_frameOf cmd param, frameBus_frameOf_and_fixed cmd param⟩

open Machine in
/-- Settles O18: offsets 5 and 6 hold the parameter's two bytes. -/
theorem parameterSplit : Obligations.ParameterSplit := by
  refine ⟨fun s cmd param => ⟨_, exec_encode cmd param s, frameOf_five cmd param, frameOf_six cmd param, ?_, ?_⟩,
    fun s cmd folder track => ⟨_, exec_encode cmd _ s, ?_, ?_⟩⟩
  · rw [State.driveFrame_encFrame, frameOf_five, hiByte_toNat]
  · rw [State.driveFrame_encFrame, frameOf_six, loByte_toNat]
  · exact (frameOf_five cmd _).trans (hiByte_be16 folder track)
  · exact (frameOf_six cmd _).trans (loByte_be16 folder track)

open Machine in
/-- Settles O28: what DECODE reports is the decoder's result, which is PARSED on the pattern alone. -/
theorem acceptedPattern : Obligations.AcceptedPattern :=
  fun _ _ _ _ => exec_decode_eq_next_iff.trans decodeFrame_eq_parsed_iff

/-- Settles O3, one clause for each branch of the reading. -/
theorem requestWordDecodingIsTotal : Obligations.RequestWordDecodingIsTotal :=
  fun _ => ⟨decode_of_opField_checksum, decode_of_opField_encode, fun ⟨h, hr⟩ => decode_of_opField_decode h hr,
    decode_of_opField_reserved, fun ⟨h, hr⟩ => decode_of_reservedField_ne h hr⟩

/-- Settles O4: the eight words are literals. -/
theorem wordsOfTheSpecProgramsDecode : Obligations.WordsOfTheSpecProgramsDecode := by
  unfold Obligations.WordsOfTheSpecProgramsDecode
  decide

/-- Settles O6: neither kind of word decodes. -/
theorem reservedRequestIsRefused : Obligations.ReservedRequestIsRefused := by
  rintro s w rest hp (hop | ⟨hop, hr⟩)
  · exact Machine.step_request_reserved hp (decode_of_opField_reserved hop)
  · exact Machine.step_request_reserved hp (decode_of_reservedField_ne hop hr)

/-- Settles O21: the first three are the assembler's own lines, and the shifted folder shares no bit with the track. -/
theorem pseudoOperationExpansions : Obligations.PseudoOperationExpansions :=
  ⟨fun _ => rfl, fun _ => rfl, fun _ _ => rfl, Machine.folderTrack_eq⟩

end Sys2Proof
end

section
/-! Proofs of the statements of 41_encode.md: the bytes of ENCODE's frame, the software call of ENCODE, and DECODE of what was
written. -/

namespace Sys2Proof

namespace Machine

/-! The frame of a command and a parameter, whole and at the offsets 41_encode.md R86 speaks of. -/

theorem frameOf_eq (cmd : Byte) (param : Word16) :
    frameOf cmd param = #v[startByte, versionByte, lengthByte, cmd, feedbackFlag, hiByte param, loByte param,
      hiByte (checksum cmd (hiByte param) (loByte param)), loByte (checksum cmd (hiByte param) (loByte param)), endByte] :=
  buildFrame_eq _ cmd param

theorem frameOf_toList (cmd : Byte) (param : Word16) :
    (frameOf cmd param).toList = [startByte, versionByte, lengthByte, cmd, feedbackFlag, hiByte param, loByte param,
      hiByte (checksum cmd (hiByte param) (loByte param)), loByte (checksum cmd (hiByte param) (loByte param)), endByte] := by
  rw [frameOf_eq]
  rfl

theorem frameOf_fixed (cmd : Byte) (param : Word16) :
    (frameOf cmd param)[0] = startByte ∧ (frameOf cmd param)[1] = versionByte ∧ (frameOf cmd param)[2] = lengthByte ∧
      (frameOf cmd param)[4] = feedbackFlag ∧ (frameOf cmd param)[9] = endByte := by
  rw [frameOf_eq]
  exact ⟨rfl, rfl, rfl, rfl, rfl⟩

theorem frameOf_three (cmd : Byte) (param : Word16) : (frameOf cmd param)[3] = cmd := by
  rw [frameOf_eq]
  rfl

theorem frameOf_seven (cmd : Byte) (param : Word16) :
    (frameOf cmd param)[7] = hiByte (checksum cmd (hiByte param) (loByte param)) := by
  rw [frameOf_eq]
  rfl

theorem frameOf_eight (cmd : Byte) (param : Word16) :
    (frameOf cmd param)[8] = loByte (checksum cmd (hiByte param) (loByte param)) := by
  rw [frameOf_eq]
  rfl

/-- ENCODE drives the frame, once it is known, and nothing else. -/
theorem exec_encode_of_frameOf {cmd : Byte} {param : Word16} {f : Frame} (h : frameOf cmd param = f) (s : State) :
    exec (.encode cmd param) s = .next { s with encFrame := f } := by
  rw [exec_encode, h]
  rfl

/-- The frame of the spec's base example (41_encode.md R80, R87). -/
theorem frameOf_setVolume_thirty : frameOf 0x06#8 30#16 =
    #v[0x7E#8, 0xFF#8, 0x06#8, 0x06#8, 0x00#8, 0x00#8, 0x1E#8, 0xFE#8, 0xD7#8, 0xEF#8] := by
  decide

/-- The frame of folder 1, track 10 (41_encode.md R87). -/
theorem frameOf_playFolderFile_one_ten : frameOf 0x0F#8 ((1#16 <<< 8) ||| 10#16) =
    #v[0x7E#8, 0xFF#8, 0x06#8, 0x0F#8, 0x00#8, 0x01#8, 0x0A#8, 0xFE#8, 0xE1#8, 0xEF#8] := by
  decide

/-! Where the checksum lies, and with it its high byte (42_checksum.md R91). -/

theorem checksum_bounds (b3 ph pl : Byte) :
    0xFBFE ≤ (checksum b3 ph pl).toNat ∧ (checksum b3 ph pl).toNat ≤ 0xFEFB := by
  have := checksumSum_bounds b3 ph pl
  rw [checksum_toNat]
  omega

theorem checksum_ne_zero (b3 ph pl : Byte) : checksum b3 ph pl ≠ 0x0000#16 := by
  intro h
  have hlow := (checksum_bounds b3 ph pl).1
  rw [h] at hlow
  exact absurd hlow (by decide)

theorem hiByte_checksum_cases (b3 ph pl : Byte) :
    hiByte (checksum b3 ph pl) = 0xFB#8 ∨ hiByte (checksum b3 ph pl) = 0xFC#8 ∨
      hiByte (checksum b3 ph pl) = 0xFD#8 ∨ hiByte (checksum b3 ph pl) = 0xFE#8 := by
  have := checksum_bounds b3 ph pl
  simp only [← BitVec.toNat_inj, hiByte_toNat, Nat.shiftRight_eq_div_pow, BitVec.toNat_ofNat]
  omega

/-! The software call of ENCODE (41_encode.md R85). -/

theorem paramInRange_iff {p : Int} : paramInRange p = true ↔ 0 ≤ p ∧ p < 0x10000 := by
  simp [paramInRange]

/-- A parameter in range keeps its value on the 16-bit port. -/
theorem ofInt_toNat_of_paramInRange {p : Int} (h : paramInRange p = true) : ((BitVec.ofInt 16 p).toNat : Int) = p := by
  obtain ⟨hnonneg, hlt⟩ := paramInRange_iff.mp h
  rw [BitVec.toNat_ofInt]
  omega

/-- A call whose parameter is out of range is refused. -/
theorem step_callEncode_refused {s : State} {cmd : Byte} {p : Int} {rest : List HostStep}
    (h : s.pending = .callEncode cmd p :: rest) (hp : ¬ paramInRange p = true) : step s = .refused .paramOutOfRange := by
  simp [step_of_pending h, runHostStep, hostCallEncode, hp]

/-- The decoder parses every frame of ENCODE, and reads back its command and parameter (41_encode.md R82). -/
theorem decodeFrame_frameOf (cmd : Byte) (param : Word16) :
    decodeFrame true (frameOf cmd param).toList = .parsed cmd (loByte param) param :=
  decodeFrame_eq_parsed_iff.mpr
    ⟨versionByte, lengthByte, feedbackFlag, hiByte param, (be16_bytes param).symm, frameOf_toList cmd param⟩

end Machine

open Machine in
/-- Settles O14: the constants of the frame, the command as it is, and the range of the checksum. -/
theorem encodedFrameFixedParts : Obligations.EncodedFrameFixedParts := by
  intro s cmd param
  obtain ⟨hstart, hversion, hlength, hflag, hend⟩ := frameOf_fixed cmd param
  have hcmd := frameOf_three cmd param
  refine ⟨_, exec_encode cmd param s, hstart, hversion, hlength, hflag, hend, ?_, ?_, hcmd, hcmd.trans, hcmd.trans⟩
  · rw [State.driveFrame_encFrame, frameOf_seven]
    exact hiByte_checksum_cases cmd _ _
  · rw [State.driveFrame_encFrame, frameOf_seven, frameOf_eight]
    exact (be16_bytes _).trans_ne (checksum_ne_zero cmd _ _)

/-- Settles O15: from either buffer the ten writes make the same ten bytes. -/
theorem encodeForgetsEarlierFrames : Obligations.EncodeForgetsEarlierFrames :=
  fun old old' cmd param => (Machine.buildFrame_eq old cmd param).trans (Machine.buildFrame_eq old' cmd param).symm

open Machine in
/-- Settles O20: the two clauses are the two sides of the range check. -/
theorem wideParameterIsRefused : Obligations.WideParameterIsRefused := by
  refine fun s cmd p rest hpending => ⟨fun hrange => ?_, fun hwide => ?_⟩
  · have hp := paramInRange_iff.mpr hrange
    exact ⟨_, ofInt_toNat_of_paramInRange hp, step_callEncode hpending hp⟩
  · have hp : ¬ paramInRange p = true := by
      rw [paramInRange_iff]
      omega
    exact step_callEncode_refused hpending hp

open Machine in
/-- Settles O49: what was written is a frame of ENCODE, and DECODE parses those. -/
theorem writtenBytesParse : Obligations.WrittenBytesParse := by
  rintro s ⟨hwrote, -⟩ bytes hmem
  obtain ⟨cmd, param, rfl⟩ := hwrote bytes hmem
  exact ⟨cmd, loByte param, param, fun _ => exec_decode_eq_next_iff.mpr (decodeFrame_frameOf cmd param)⟩

open Machine in
/-- Settles O13: the ten bytes as a list, the EN word, and the base example. -/
theorem encodeDrivesTheFrame : Obligations.EncodeDrivesTheFrame :=
  ⟨fun s cmd param => ⟨_, exec_encode cmd param s, frameOf_toList cmd param⟩,
    fun _ => decode_of_opField_encode, exec_encode_of_frameOf frameOf_setVolume_thirty⟩

open Machine in
/-- Settles O17: the frames and the checksum of the two literal examples. -/
theorem encodeWorkedExamples : Obligations.EncodeWorkedExamples :=
  fun s => ⟨exec_encode_of_frameOf frameOf_setVolume_thirty s, by decide, by decide,
    exec_encode_of_frameOf frameOf_playFolderFile_one_ten s⟩

end Sys2Proof
end

section
/-! Proofs of the statements of 42_checksum.md: the range of the checksum, the ways of computing it, its laws, and the one unit
on both paths. -/

namespace Sys2Proof

namespace Machine

/-- CHECKSUM drives the checksum, once it is known, and nothing else. -/
theorem exec_checksum_of_checksum {b3 ph pl : Byte} {v : Word16} (h : checksum b3 ph pl = v) (s : State) :
    exec (.checksum b3 ph pl) s = .next { s with ckSum := v } := by
  rw [exec_checksum, h]
  rfl

/-- The checksum of the spec's base example (42_checksum.md R90). -/
theorem checksum_setVolume_thirty : checksum 0x06#8 0x00#8 0x1E#8 = 0xFED7#16 := by
  decide

/-! The ways of computing the checksum (42_checksum.md R90, R92). -/

theorem checksum_toNat_eq_neg_emod (b3 ph pl : Byte) :
    ((checksum b3 ph pl).toNat : Int) = (-(checksumSum b3 ph pl : Int)) % 2 ^ 16 := by
  have := checksumSum_bounds b3 ph pl
  rw [checksum_toNat]
  omega

theorem checksum_eq_not_add_one (b3 ph pl : Byte) :
    checksum b3 ph pl = ~~~(BitVec.ofNat 16 (checksumSum b3 ph pl)) + 1#16 := by
  rw [checksum, BitVec.ofInt_neg, BitVec.ofInt_natCast, BitVec.neg_eq_not_add]

/-- Masking with 0xFFFF and cutting to 16 bits is cutting to 16 bits. -/
theorem setWidth_and_mask (x : BitVec 32) : (x &&& 0xFFFF#32).setWidth 16 = x.setWidth 16 := by
  have hmask : (0xFFFF#32).setWidth 16 = BitVec.allOnes 16 := by decide
  rw [BitVec.setWidth_and, hmask, BitVec.and_allOnes]

theorem checksum_eq_mask_of_wide (b3 ph pl : Byte) :
    checksum b3 ph pl = (BitVec.ofInt 32 (-(checksumSum b3 ph pl : Int)) &&& 0xFFFF#32).setWidth 16 := by
  rw [setWidth_and_mask, checksum]
  apply BitVec.eq_of_toNat_eq
  rw [BitVec.toNat_setWidth, BitVec.toNat_ofInt, BitVec.toNat_ofInt]
  omega

/-! The laws of the checksum (42_checksum.md R96). -/

/-- The cancellation law, exactly: the one wrap is the last. -/
theorem checksumSum_add_checksum (b3 ph pl : Byte) : checksumSum b3 ph pl + (checksum b3 ph pl).toNat = 0x10000 := by
  have := checksumSum_bounds b3 ph pl
  rw [checksum_toNat]
  omega

theorem hiByte_shiftLeft_add_loByte (v : Word16) : (hiByte v).toNat <<< 8 + (loByte v).toNat = v.toNat := by
  rw [Nat.shiftLeft_add_eq_or_of_lt (loByte v).isLt, ← BitVec.toNat_append]
  exact congrArg BitVec.toNat (be16_bytes v)

theorem checksumSum_add_checksum_bytes (b3 ph pl : Byte) :
    checksumSum b3 ph pl + (hiByte (checksum b3 ph pl)).toNat <<< 8 + (loByte (checksum b3 ph pl)).toNat = 0x10000 := by
  rw [Nat.add_assoc, hiByte_shiftLeft_add_loByte, checksumSum_add_checksum]

/-- Operands with equal sums have equal checksums. -/
theorem checksum_eq_of_add_eq {a b c a' b' c' : Byte}
    (h : a.toNat + b.toNat + c.toNat = a'.toNat + b'.toNat + c'.toNat) : checksum a b c = checksum a' b' c' := by
  rw [checksum_eq_iff, checksumSum_eq, checksumSum_eq]
  omega

/-- The range of sums that gives a high byte (42_checksum.md R91). -/
theorem hiByte_checksum_eq_iff {b3 ph pl v : Byte} : hiByte (checksum b3 ph pl) = v ↔
    0xFF00 < checksumSum b3 ph pl + 256 * v.toNat ∧ checksumSum b3 ph pl + 256 * v.toNat ≤ 0x10000 := by
  have := checksumSum_bounds b3 ph pl
  rw [← BitVec.toNat_inj, hiByte_toNat, checksum_toNat, Nat.shiftRight_eq_div_pow]
  omega

/-- Between its delimiters a buffer is PARSED exactly when offsets 7 and 8 hold the checksum (43_decode.md R104, R105). -/
theorem decodeFrame_framed_parsed_iff (b1 b2 b3 b4 b5 b6 b7 b8 : Byte) :
    (∃ t v p, decodeFrame true [0x7E#8, b1, b2, b3, b4, b5, b6, b7, b8, 0xEF#8] = .parsed t v p) ↔
      be16 b7 b8 = checksum b3 b5 b6 := by
  rw [decodeFrame_ten, if_neg (by simp)]
  split
  · next hne => simpa using hne.symm
  · next heq => simpa using (not_not.mp heq).symm

end Machine

open Machine in
/-- Settles O10: the bounds of the sum, and the sums of each high byte. -/
theorem checksumRange : Obligations.ChecksumRange := by
  intro b3 ph pl s chk
  obtain ⟨hlow, hhigh⟩ : 0x105 ≤ s ∧ s ≤ 0x402 := checksumSum_bounds b3 ph pl
  obtain ⟨hchkLow, hchkHigh⟩ := checksum_bounds b3 ph pl
  have hbyte (v : Byte) (h : 0xFF00 < s + 256 * v.toNat ∧ s + 256 * v.toNat ≤ 0x10000) : hiByte chk = v :=
    hiByte_checksum_eq_iff.mpr h
  refine ⟨hlow, hhigh, by omega, checksum_toNat b3 ph pl, hchkLow, hchkHigh, checksum_ne_zero b3 ph pl,
    fun h => hbyte _ ?_, fun h => hbyte _ ?_, fun h => hbyte _ ?_, fun h => hbyte _ ?_⟩ <;>
    simp only [BitVec.toNat_ofNat] <;> omega

open Machine in
/-- Settles O11: the sum written out is the unit's, which fits in 11 bits. -/
theorem checksumWidthsAgree : Obligations.ChecksumWidthsAgree :=
  fun b3 ph pl => ⟨(checksumSum_bounds b3 ph pl).2.trans_lt (by decide), checksum_toNat_eq_neg_emod b3 ph pl,
    checksum_eq_not_add_one b3 ph pl, checksum_toNat b3 ph pl, checksum_eq_mask_of_wide b3 ph pl⟩

open Machine in
/-- Settles O12: cancellation, then equal sums, from which the permutations and the boundary values follow. -/
theorem checksumLaws : Obligations.ChecksumLaws := by
  refine ⟨fun b3 ph pl => ⟨?_, ?_⟩, fun _ _ _ _ _ _ => checksum_eq_of_add_eq, fun a b c => ?_, by decide, by decide,
    by decide, fun b3 ph pl h => ?_, fun b3 ph pl h => ?_, fun b3 => ?_⟩
  · exact congrArg (· % 2 ^ 16) (checksumSum_add_checksum b3 ph pl)
  · exact congrArg (· % 2 ^ 16) (checksumSum_add_checksum_bytes b3 ph pl)
  · refine ⟨?_, ?_, ?_, ?_, ?_⟩ <;> exact checksum_eq_of_add_eq (by omega)
  · calc checksum b3 ph pl = checksum 0xFB#8 0x00#8 0x00#8 := checksum_eq_of_add_eq h
      _ = 0xFE00#16 := by decide
  · calc checksum b3 ph pl = checksum 0xFC#8 0x00#8 0x00#8 := checksum_eq_of_add_eq h
      _ = 0xFDFF#16 := by decide
  · rw [checksum_toNat, checksumSum_eq]
    rfl

open Machine in
/-- Settles O25: ENCODE embeds the checksum of its operands, and DECODE compares with that of its buffer. -/
theorem checksumUnitIsShared : Obligations.ChecksumUnitIsShared := by
  constructor
  · intro s cmd param
    refine ⟨_, _, exec_checksum _ _ _ s, exec_encode cmd param s, ?_⟩
    rw [State.driveFrame_encFrame, State.driveSum_ckSum, frameOf_seven, frameOf_eight]
    exact be16_bytes _
  · intro s b1 b2 b3 b4 b5 b6 b7 b8 hbuf
    refine ⟨_, _, exec_checksum b3 b5 b6 s, exec_decode true s, ?_⟩
    rw [State.driveResult_decRes, State.driveSum_ckSum, hbuf]
    exact decodeFrame_framed_parsed_iff b1 b2 b3 b4 b5 b6 b7 b8

open Machine in
/-- Settles O9: the value on `ck_sum`, the CK word, and the base example. -/
theorem checksumDrivesItsResult : Obligations.ChecksumDrivesItsResult :=
  ⟨fun s b3 ph pl => ⟨_, exec_checksum b3 ph pl s, checksum_toNat_eq_neg_emod b3 ph pl⟩,
    fun _ => decode_of_opField_checksum, exec_checksum_of_checksum checksum_setVolume_thirty⟩

end Sys2Proof
end

section
/-! Proofs of the statements of 43_decode.md: the four results case by case, the round trip with ENCODE, what DECODE reads, and
what becomes of a frame whose bytes were changed. -/

namespace Sys2Proof

namespace Machine

/-! The results of DECODE, one equation per case (43_decode.md R102 to R106). -/

theorem exec_decode_noData (s : State) : exec (.decode false) s = .next { s with decRes := .noData } := by
  rw [exec_decode, decodeFrame_noData]
  rfl

/-- A wrong delimiter settles the result, whatever the length and the other bytes. -/
theorem decodeFrame_wrongDelimiter {buf : List Byte} (h : buf[0]? ≠ some 0x7E#8 ∨ buf[9]? ≠ some 0xEF#8) :
    decodeFrame true buf = .framing := by
  by_cases hlen : buf.length = 10
  · obtain ⟨b0, b1, b2, b3, b4, b5, b6, b7, b8, b9, rfl⟩ := eq_ten_of_length hlen
    rw [decodeFrame_ten, if_pos (by simpa using h)]
  · exact decodeFrame_badLength hlen

/-- Between right delimiters the checksum decides. -/
theorem decodeFrame_framed (b1 b2 b3 b4 b5 b6 b7 b8 : Byte) :
    decodeFrame true [0x7E#8, b1, b2, b3, b4, b5, b6, b7, b8, 0xEF#8] =
      if checksum b3 b5 b6 = be16 b7 b8 then .parsed b3 b6 (be16 b5 b6) else .checksumMismatch := by
  rw [decodeFrame_ten, if_neg (by simp), ite_not]

theorem decodeFrame_rightChecksum {b1 b2 b3 b4 b5 b6 b7 b8 : Byte} (h : checksum b3 b5 b6 = be16 b7 b8) :
    decodeFrame true [0x7E#8, b1, b2, b3, b4, b5, b6, b7, b8, 0xEF#8] = .parsed b3 b6 (be16 b5 b6) := by
  rw [decodeFrame_framed, if_pos h]

theorem decodeFrame_wrongChecksum {b1 b2 b3 b4 b5 b6 b7 b8 : Byte} (h : checksum b3 b5 b6 ≠ be16 b7 b8) :
    decodeFrame true [0x7E#8, b1, b2, b3, b4, b5, b6, b7, b8, 0xEF#8] = .checksumMismatch := by
  rw [decodeFrame_framed, if_neg h]

/-- Offsets 1, 2 and 4 of a ten-byte buffer are not read (43_decode.md R108). -/
theorem decodeFrame_congr {buf buf' : List Byte} (hlen : buf.length = 10) (hlen' : buf'.length = 10)
    (h : ∀ k, k = 0 ∨ k = 3 ∨ k = 5 ∨ k = 6 ∨ k = 7 ∨ k = 8 ∨ k = 9 → buf[k]? = buf'[k]?) :
    decodeFrame true buf = decodeFrame true buf' := by
  obtain ⟨b0, b1, b2, b3, b4, b5, b6, b7, b8, b9, rfl⟩ := eq_ten_of_length hlen
  obtain ⟨c0, c1, c2, c3, c4, c5, c6, c7, c8, c9, rfl⟩ := eq_ten_of_length hlen'
  obtain ⟨rfl, rfl, rfl, rfl, rfl, rfl, rfl⟩ :
      b0 = c0 ∧ b3 = c3 ∧ b5 = c5 ∧ b6 = c6 ∧ b7 = c7 ∧ b8 = c8 ∧ b9 = c9 := by simpa using h
  rw [decodeFrame_ten, decodeFrame_ten]

/-! A byte of a valid frame replaced by another (43_decode.md R112). A flipped bit is one such change. -/

theorem xor_one_shiftLeft_ne (b : Byte) {k : Nat} (hk : k < 8) : b ^^^ (1#8 <<< k) ≠ b := by
  intro h
  have hbit := congrArg (BitVec.getLsbD · k) h
  simp [hk] at hbit

/-- Equal checksums are equal sums of the operands. -/
theorem checksum_eq_iff_add_eq {a b c a' b' c' : Byte} : checksum a b c = checksum a' b' c' ↔
    a.toNat + b.toNat + c.toNat = a'.toNat + b'.toNat + c'.toNat := by
  rw [checksum_eq_iff, checksumSum_eq, checksumSum_eq]
  omega

section
variable {buf : List Byte} {t v b c : Byte} {p : Word16} {i : Nat}

theorem decodeFrame_set_delimiter (hparsed : decodeFrame true buf = .parsed t v p) (hb : buf[i]? = some b) (hc : c ≠ b)
    (hi : i = 0 ∨ i = 9) : decodeFrame true (buf.set i c) = .framing := by
  obtain ⟨x1, x2, x4, h, rfl, rfl⟩ := decodeFrame_eq_parsed_iff.mp hparsed
  apply decodeFrame_wrongDelimiter
  obtain rfl | rfl := hi
  · left
    simpa [← Option.some_inj.mp hb] using hc
  · right
    simpa [← Option.some_inj.mp hb] using hc

/-- A changed operand changes the sum, and a changed checksum byte the embedded checksum. -/
theorem decodeFrame_set_checked (hparsed : decodeFrame true buf = .parsed t v p) (hb : buf[i]? = some b) (hc : c ≠ b)
    (hi : i = 3 ∨ i = 5 ∨ i = 6 ∨ i = 7 ∨ i = 8) : decodeFrame true (buf.set i c) = .checksumMismatch := by
  obtain ⟨x1, x2, x4, h, rfl, rfl⟩ := decodeFrame_eq_parsed_iff.mp hparsed
  obtain rfl | rfl | rfl | rfl | rfl := hi <;> obtain rfl := Option.some_inj.mp hb <;>
    apply decodeFrame_wrongChecksum
  · simpa [checksum_eq_iff_add_eq, BitVec.toNat_inj] using hc
  · simpa [checksum_eq_iff_add_eq, BitVec.toNat_inj] using hc
  · simpa [checksum_eq_iff_add_eq, BitVec.toNat_inj] using hc
  · exact fun hsum => hc (be16_inj.mp ((be16_bytes _).trans hsum)).1.symm
  · exact fun hsum => hc (be16_inj.mp ((be16_bytes _).trans hsum)).2.symm

theorem decodeFrame_set_unread (hparsed : decodeFrame true buf = .parsed t v p) (hi : i = 1 ∨ i = 2 ∨ i = 4) :
    decodeFrame true (buf.set i c) = .parsed t v p := by
  obtain ⟨x1, x2, x4, h, rfl, rfl⟩ := decodeFrame_eq_parsed_iff.mp hparsed
  rw [← hparsed]
  refine decodeFrame_congr (List.length_set ..) rfl fun k hk => List.getElem?_set_ne (by omega)

end

/-- Two bytes side by side as a number (20_memory.md R43). -/
theorem be16_toNat (hi lo : Byte) : (be16 hi lo).toNat = hi.toNat * 256 + lo.toNat := by
  rw [← hiByte_shiftLeft_add_loByte, hiByte_be16, loByte_be16, Nat.shiftLeft_eq]

end Machine

open Machine in
/-- Settles O19: the decoder parses the ten bytes of every frame of ENCODE. -/
theorem encodeThenDecodeRoundTrip : Obligations.EncodeThenDecodeRoundTrip :=
  fun s cmd param => ⟨_, exec_encode cmd param s, exec_decode_eq_next_iff.mpr (decodeFrame_frameOf cmd param)⟩

open Machine in
/-- Settles O29: NO_DATA and FRAMING on both sides, and last the offsets the checks do not read. -/
theorem decodeReadSet : Obligations.DecodeReadSet := by
  refine ⟨fun buf buf' => ?_, fun buf buf' hlen hlen' => ?_, fun buf buf' _ _ h0 h9 hwrong => ?_,
    fun _ _ => decodeFrame_congr⟩
  · rw [decodeFrame_noData, decodeFrame_noData]
  · rw [decodeFrame_badLength hlen, decodeFrame_badLength hlen']
  · rw [decodeFrame_wrongDelimiter hwrong, decodeFrame_wrongDelimiter (h0 ▸ h9 ▸ hwrong)]

open Machine in
/-- Settles O30: a flipped bit makes another byte, at a delimiter, in a checked byte, or where none is read. -/
theorem singleBitFlips : Obligations.SingleBitFlips := by
  intro s t v p i k b hexec hb hk
  have hparsed := exec_decode_eq_next_iff.mp hexec
  have hflip := xor_one_shiftLeft_ne b hk
  exact ⟨fun hi => exec_decode_eq_next_iff.mpr (decodeFrame_set_delimiter hparsed hb hflip hi),
    fun hi => exec_decode_eq_next_iff.mpr (decodeFrame_set_checked hparsed hb hflip hi),
    fun hi => exec_decode_eq_next_iff.mpr (decodeFrame_set_unread hparsed hi)⟩

open Machine in
/-- Settles O31: equal sums have equal checksums, and no checksum lies outside 0xFBFE to 0xFEFB. -/
theorem compensatingChangesAndDeadChecksums : Obligations.CompensatingChangesAndDeadChecksums := by
  constructor
  · intro s b1 b2 b3 b4 b5 b6 b7 b8 c3 c5 c6 hbuf hsum hadd
    rw [exec_decode_eq_next_iff, hbuf]
    exact decodeFrame_rightChecksum ((checksum_eq_of_add_eq hadd).symm.trans hsum)
  · intro s b1 b2 b3 b4 b5 b6 b7 b8 hbuf hdead
    rw [exec_decode_eq_next_iff, hbuf]
    apply decodeFrame_wrongChecksum
    intro hsum
    have := checksum_bounds b3 b5 b6
    rw [hsum, be16_toNat] at this
    omega

/-- Settles O22: availability is looked at before the buffer. -/
theorem noDataWhenNoneAvailable : Obligations.NoDataWhenNoneAvailable :=
  ⟨Machine.exec_decode_noData, by decide⟩

open Machine in
/-- Settles O23: the length, then either delimiter. -/
theorem framingResults : Obligations.FramingResults := by
  refine ⟨fun s hlen => ?_, fun s b0 b1 b2 b3 b4 b5 b6 b7 b8 b9 hbuf h0 => ?_,
    fun s b0 b1 b2 b3 b4 b5 b6 b7 b8 b9 hbuf h9 => ?_⟩
  · exact exec_decode_eq_next_iff.mpr (decodeFrame_badLength hlen)
  · exact exec_decode_eq_next_iff.mpr (decodeFrame_wrongDelimiter (.inl (by simpa [hbuf] using h0)))
  · exact exec_decode_eq_next_iff.mpr (decodeFrame_wrongDelimiter (.inr (by simpa [hbuf] using h9)))

open Machine in
/-- Settles O24: the framed case with a wrong checksum. -/
theorem checksumMismatchResult : Obligations.ChecksumMismatchResult := by
  intro s b1 b2 b3 b4 b5 b6 b7 b8 hbuf hsum
  rw [exec_decode_eq_next_iff, hbuf]
  exact decodeFrame_wrongChecksum hsum

open Machine in
/-- Settles O26: the framed case with the right checksum. -/
theorem parsedResult : Obligations.ParsedResult := by
  intro s b1 b2 b3 b4 b5 b6 b7 b8 hbuf hsum
  rw [exec_decode_eq_next_iff, hbuf]
  exact decodeFrame_rightChecksum hsum

end Sys2Proof
end

section
/-! Proofs of the statements of 44_host_compositions.md: what each act does to the transport, the wire invariant, and the runs
of Send, POLL and QUERY. -/

namespace Sys2Proof

namespace Machine

/-! An operation drives its own port (20_memory.md R48): the host's list and the transport stay, and `enc_frame` too unless
the operation is ENCODE. -/

theorem pending_eq_of_exec {i : Instr} {s t : State} (h : exec i s = .next t) : t.pending = s.pending := by
  cases i <;> cases h <;> rfl

theorem written_eq_of_exec {i : Instr} {s t : State} (h : exec i s = .next t) : t.written = s.written := by
  cases i <;> cases h <;> rfl

/-- What an issued word leaves on `enc_frame`: a frame of ENCODE where it selects ENCODE, else what was there. -/
theorem encReady_or_encFrame_eq_of_exec {w : RequestWord} {i : Instr} {s t : State} (hd : decode w = .ok i)
    (h : exec i s = .next t) : EncReady t ∨ selectsEncode w = false ∧ t.encFrame = s.encFrame := by
  cases i with
  | checksum b3 ph pl =>
    cases h
    exact .inr ⟨by simp [selectsEncode, hd], rfl⟩
  | encode cmd param =>
    cases h
    exact .inl ⟨cmd, param, rfl⟩
  | decode avail =>
    cases h
    exact .inr ⟨by simp [selectsEncode, hd], rfl⟩

/-! The wire invariant (44_host_compositions.md R120; 41_encode.md R82). -/

@[simp] theorem selectsEncode_encode_encode (cmd : Byte) (param : Word16) :
    selectsEncode (encode (.encode cmd param)) = true := by
  simp [selectsEncode, decode_encode]

@[simp] theorem selectsEncode_encode_decode (avail : Bool) : selectsEncode (encode (.decode avail)) = false := by
  simp [selectsEncode, decode_encode]

/-- Guarded lists in a row are guarded, when the second needs no ENCODE of the first. -/
theorem writesGuarded_append {p q : List HostStep} {ready : Bool} (hp : writesGuarded ready p = true)
    (hq : ∀ r, writesGuarded r q = true) : writesGuarded ready (p ++ q) = true := by
  induction p generalizing ready with
  | nil => exact hq ready
  | cons hd rest ih =>
    cases hd with
    | write =>
      simp only [writesGuarded, Bool.and_eq_true] at hp
      obtain ⟨hready, hrest⟩ := hp
      simp only [List.cons_append, writesGuarded, hready, Bool.true_and]
      exact ih (hready ▸ hrest)
    | _ => exact ih hp

/-- Each line's own write, of Send and QUERY, follows its own ENCODE. -/
theorem writesGuarded_assemble (ready : Bool) (line : AsmLine) : writesGuarded ready (assemble line) = true := by
  cases line <;> rfl

theorem writesGuarded_assembleAll (lines : List AsmLine) : ∀ ready, writesGuarded ready (assembleAll lines) = true := by
  induction lines with
  | nil => exact fun _ => rfl
  | cons line rest ih => exact fun ready => writesGuarded_append (writesGuarded_assemble ready line) ih

/-- An act that leaves the port and the written bytes, and whose follow-up is as guarded as before, keeps the invariant. -/
theorem WireInv.of_unchanged {s t : State} (hinv : WireInv s) (hframe : t.encFrame = s.encFrame)
    (hwritten : t.written = s.written)
    (hguard : ∀ r, writesGuarded r s.pending = true → writesGuarded r t.pending = true) : WireInv t := by
  obtain ⟨hwrote, ready, hready, hpending⟩ := hinv
  refine ⟨?_, ready, ?_, hguard ready hpending⟩
  · rwa [WroteFrames, hwritten]
  · rwa [EncReady, hframe]

theorem wireInv_of_request {s t : State} {w : RequestWord} {i : Instr} {rest : List HostStep} (hinv : WireInv s)
    (hp : s.pending = .request w :: rest) (hd : decode w = .ok i) (h : exec i (s.setPending rest) = .next t) :
    WireInv t := by
  have hwritten : t.written = s.written := (written_eq_of_exec h).trans rfl
  have hpending : t.pending = rest := pending_eq_of_exec h
  obtain henc | ⟨hsel, hframe⟩ := encReady_or_encFrame_eq_of_exec hd h
  · obtain ⟨hwrote, ready, -, hguard⟩ := hinv
    rw [hp, writesGuarded] at hguard
    refine ⟨by rwa [WroteFrames, hwritten], ready || selectsEncode w, fun _ => henc, by rwa [hpending]⟩
  · exact hinv.of_unchanged hframe hwritten (by simp [hp, hpending, writesGuarded, hsel])

/-- The guard says that the frame handed over is one of ENCODE. -/
theorem wireInv_of_write {s : State} {rest : List HostStep} (hinv : WireInv s) (hp : s.pending = .write :: rest) :
    WireInv ((s.setPending rest).writeBytes s.encFrame.toList) := by
  obtain ⟨hwrote, ready, hready, hguard⟩ := hinv
  rw [hp, writesGuarded, Bool.and_eq_true] at hguard
  obtain ⟨hr, hrest⟩ := hguard
  refine ⟨fun bytes hmem => ?_, ready, hready, hrest⟩
  obtain hold | rfl : bytes ∈ s.written ∨ bytes = s.encFrame.toList := by simpa using hmem
  · exact hwrote bytes hold
  · obtain ⟨cmd, param, hframe⟩ := hready hr
    exact ⟨cmd, param, congrArg Vector.toList hframe⟩

theorem writesGuarded_afterAvail_append (ready avail : Bool) (rest : List HostStep) :
    writesGuarded ready (afterAvail avail ++ rest) = writesGuarded ready rest := by
  cases avail <;> simp [afterAvail, writesGuarded]

/-- What a step is to the wire: an operation issued, the write call, or an act that leaves the port, the written bytes and
the guard as they were. -/
theorem step_wire_cases {s t : State} (h : step s = .next t) :
    (∃ rest w i, s.pending = .request w :: rest ∧ decode w = .ok i ∧ exec i (s.setPending rest) = .next t) ∨
    (∃ rest, s.pending = .write :: rest ∧ t = (s.setPending rest).writeBytes s.encFrame.toList) ∨
    ((∀ rest, s.pending ≠ .write :: rest) ∧ t.encFrame = s.encFrame ∧ t.written = s.written ∧
      ∀ ready, writesGuarded ready s.pending = true → writesGuarded ready t.pending = true) := by
  obtain ⟨hp, rfl⟩ | ⟨rest, ⟨w, i, hp, hd, hexec⟩ | hact⟩ := step_cases h
  · exact .inr (.inr ⟨by simp [hp], rfl, rfl, fun _ => id⟩)
  · exact .inl ⟨rest, w, i, hp, hd, hexec⟩
  obtain ⟨cmd, p, hp, -, rfl⟩ | ⟨buf, hp, rfl⟩ | ⟨hp, rfl⟩ | ⟨d, hp, rfl⟩ | ⟨hp, rfl⟩ | ⟨n, hp, rfl⟩ | ⟨what, hp, rfl⟩ := hact
  on_goal 3 => exact .inr (.inl ⟨rest, hp, rfl⟩)
  all_goals exact .inr (.inr ⟨by simp [hp], rfl, rfl, by simp [hp, writesGuarded, writesGuarded_afterAvail_append]⟩)

theorem wireInv_of_step {s t : State} (hinv : WireInv s) (h : step s = .next t) : WireInv t := by
  obtain ⟨rest, w, i, hp, hd, hexec⟩ | ⟨rest, hp, rfl⟩ | ⟨-, hframe, hwritten, hguard⟩ := step_wire_cases h
  · exact wireInv_of_request hinv hp hd hexec
  · exact wireInv_of_write hinv hp
  · exact hinv.of_unchanged hframe hwritten hguard

/-! The transport's contract (44_host_compositions.md R121). -/

theorem State.readResult_length_le (s : State) (n : Nat) : (s.readResult n).length ≤ n := by
  unfold State.readResult
  split <;> exact List.length_take_le n _

/-! Runs: one goes on where another ended. -/

theorem runSteps_add {s t : State} {j : Nat} (k : Nat) (h : runSteps j s = .next t) : runSteps (j + k) s = runSteps k t := by
  induction j generalizing s with
  | zero =>
    cases h
    rw [Nat.zero_add]
  | succ j ih =>
    rw [Nat.succ_add]
    cases hs : step s with
    | next u =>
      rw [runSteps_succ j hs] at h
      rw [runSteps_succ (j + k) hs, ih h]
    | fault r => cases r
    | refused r => simp [runSteps, hs] at h

theorem runSteps_one {s t : State} (h : step s = .next t) : runSteps 1 s = .next t := runSteps_succ 0 h

/-- The EN word issued (20_memory.md R47). -/
theorem step_encode {s : State} {cmd : Byte} {param : Word16} {rest : List HostStep}
    (h : s.pending = .request (encode (.encode cmd param)) :: rest) :
    step s = .next ((s.setPending rest).driveFrame (frameOf cmd param)) := step_request h (decode_encode _)

/-- The DE word issued (20_memory.md R47). -/
theorem step_decode {s : State} {avail : Bool} {rest : List HostStep}
    (h : s.pending = .request (encode (.decode avail)) :: rest) :
    step s = .next ((s.setPending rest).driveResult (decodeFrame avail s.decBuf)) := step_request h (decode_encode _)

section
variable {s : State} {rest : List HostStep}

/-- Send: the call, the EN word it issues, the write call of the frame on the port (44_host_compositions.md R120). -/
theorem runSteps_send {cmd : Byte} {p : Int} (h : s.pending = sendSteps cmd p ++ rest) (hp : paramInRange p = true) :
    runSteps 3 s = .next (((s.setPending rest).driveFrame (frameOf cmd (BitVec.ofInt 16 p))).writeBytes
      (frameOf cmd (BitVec.ofInt 16 p)).toList) := by
  rw [runSteps_succ 2 (step_callEncode h hp), runSteps_succ 1 (step_encode (State.setPending_pending s _))]
  exact runSteps_one (step_write rfl)

/-- No data: DECODE without availability, and no read (44_host_compositions.md R122; 70_reset_and_hazards.md R154). -/
theorem runSteps_checkAvail_none (h : s.pending = .checkAvail :: rest) (havail : s.availReport = false) :
    runSteps 3 s = .next (((s.afterReport.setPending rest).driveBuf []).driveResult .noData) := by
  have hcheck := step_checkAvail h
  simp only [havail, afterAvail, List.cons_append, List.nil_append] at hcheck
  rw [runSteps_succ 2 hcheck, runSteps_succ 1 (step_drive (State.setPending_pending _ _))]
  exact runSteps_one (step_decode (avail := false) rfl)

/-- Data: one read, whose bytes DECODE gets unmodified (44_host_compositions.md R122). -/
theorem runSteps_checkAvail_data (h : s.pending = .checkAvail :: rest) (havail : s.availReport = true) :
    runSteps 4 s = .next (((s.afterReport.afterRead.setPending rest).driveBuf (s.afterReport.readResult 10)).driveResult
      (decodeFrame true (s.afterReport.readResult 10))) := by
  have hcheck := step_checkAvail h
  simp only [havail, afterAvail, List.cons_append, List.nil_append] at hcheck
  rw [runSteps_succ 3 hcheck, runSteps_succ 2 (step_read (State.setPending_pending _ _)),
    runSteps_succ 1 (step_drive (State.setPending_pending _ _))]
  exact runSteps_one (step_decode rfl)

/-- QUERY up to its availability check: the frame of ENCODE(cmd, 0) is sent, and the wait is over
(44_host_compositions.md R123). -/
theorem runSteps_query_until_checkAvail {cmd : Byte} {wait : Nat} (h : s.pending = querySteps cmd wait ++ rest) :
    runSteps 4 s = .next (((s.setPending (.checkAvail :: .take .status :: rest)).driveFrame
      (frameOf cmd 0#16)).writeBytes (frameOf cmd 0#16).toList) :=
  (runSteps_add 1 (runSteps_send h (by decide))).trans (runSteps_one (step_wait rfl))

end

/-! What POLL and QUERY return (44_host_compositions.md R122, R123). -/

theorem DecResult.toPoll_eq_pair_iff {r : DecResult} {t v : Byte} : r.toPoll = .pair t v ↔ ∃ p, r = .parsed t v p := by
  cases r <;> simp [DecResult.toPoll]

theorem DecResult.toQuery_eq_status_iff {r : DecResult} {v : Byte} : r.toQuery = .status v ↔ ∃ t p, r = .parsed t v p := by
  cases r <;> simp [DecResult.toQuery]

end Machine

/-- Settles O46, from what each act does to the port, the written bytes and the guard. -/
theorem wireInvariantKept : Obligations.WireInvariantKept :=
  fun _ _ => Machine.wireInv_of_step

open Machine in
/-- Settles O39: the run of Send, with the frame's ten bytes written out. -/
theorem sendIsOneEncodeAndOneWrite : Obligations.SendIsOneEncodeAndOneWrite := by
  intro s cmd param rest h
  have hparam : paramInRange (param.toNat : Int) = true := paramInRange_iff.mpr (by omega)
  have hport : BitVec.ofInt 16 (param.toNat : Int) = param := by simp
  have hrun := runSteps_send h hparam
  rw [hport, frameOf_toList] at hrun
  exact hrun

open Machine in
/-- Settles O40: the two answers of the availability check, then POLL's value taken. -/
theorem feedbackPoll : Obligations.FeedbackPoll := by
  refine fun s rest h => ⟨fun havail => ?_, fun havail => ⟨s.afterReport.readResult_length_le 10, ?_⟩⟩
  · exact .trans (runSteps_add 1 (runSteps_checkAvail_none h havail)) (runSteps_one (step_take (what := .poll) rfl))
  · exact .trans (runSteps_add 1 (runSteps_checkAvail_data h havail)) (runSteps_one (step_take (what := .poll) rfl))

open Machine in
/-- Settles O41: Send and the wait, then the two answers of the availability check, then QUERY's value taken. -/
theorem statusQuery : Obligations.StatusQuery := by
  intro s cmd wait rest h
  have hsent := runSteps_query_until_checkAvail h
  refine ⟨fun havail => (runSteps_add 4 hsent).trans ?_, fun havail => (runSteps_add 5 hsent).trans ?_⟩
  · exact .trans (runSteps_add 1 (runSteps_checkAvail_none rfl havail)) (runSteps_one (step_take (what := .status) rfl))
  · exact .trans (runSteps_add 1 (runSteps_checkAvail_data rfl havail)) (runSteps_one (step_take (what := .status) rfl))

open Machine in
/-- Settles O44: no operation touches the transport, the write call adds the frame, and the other acts leave it. -/
theorem onlyTheHostWritesTheTransport : Obligations.OnlyTheHostWritesTheTransport := by
  intro s t h
  obtain ⟨rest, w, i, hp, -, hexec⟩ | ⟨rest, hp, rfl⟩ | ⟨hne, -, hwritten, -⟩ := step_wire_cases h
  · exact .inr ⟨by simp [hp], (written_eq_of_exec hexec).trans rfl⟩
  · exact .inl ⟨rest, hp, rfl⟩
  · exact .inr ⟨hne, hwritten⟩

open Machine in
/-- Settles O48: the lines are guarded whether or not a frame was encoded before them. -/
theorem assembledProgramsMeetTheWireInvariant : Obligations.AssembledProgramsMeetTheWireInvariant :=
  fun _ lines hinv _ => hinv.of_unchanged rfl rfl fun r _ => writesGuarded_assembleAll lines r

open Machine in
/-- Settles O42: the two successes by their lemmas, each failure by the result's constructors. -/
theorem pollAndQueryResults : Obligations.PollAndQueryResults := by
  refine fun r => ⟨fun _ _ => DecResult.toPoll_eq_pair_iff, fun _ => DecResult.toQuery_eq_status_iff, ?_⟩
  cases r with
  | parsed t v p => simp [DecResult.toPoll, DecResult.toQuery]
  | framing | checksumMismatch | noData => decide

open Machine in
/-- Settles O43: the environment's lists may hold any answer. -/
theorem transportReadIsFreeUpToItsBound : Obligations.TransportReadIsFreeUpToItsBound :=
  ⟨State.readResult_length_le,
    fun _ buf hlen => ⟨{ State.reset with readData := [buf] }, List.take_of_length_le hlen⟩,
    fun a => ⟨{ State.reset with availReports := [a] }, rfl⟩⟩

end Sys2Proof
end

section
/-! Proofs of the statements of 60_exceptions.md: which result a DECODE reports, what stops a step, and that no operation
does. -/

namespace Sys2Proof

/-- The operation select has four values (30_encoding.md R67). -/
theorem opField_cases (w : RequestWord) :
    opField w = 0b00#2 ∨ opField w = 0b01#2 ∨ opField w = 0b10#2 ∨ opField w = 0b11#2 := by
  have hall : ∀ op : BitVec 2, op = 0b00#2 ∨ op = 0b01#2 ∨ op = 0b10#2 ∨ op = 0b11#2 := by decide
  exact hall (opField w)

theorem requestWellFormed_eq_false_iff {w : RequestWord} :
    requestWellFormed w = false ↔ opField w = 0b11#2 ∨ opField w = 0b10#2 ∧ reservedField w ≠ 0#23 := by
  simp [requestWellFormed, opAssigned, reservedBitsZero, opField, reservedField, Decidable.or_iff_not_imp_left]

/-- The decoder refuses the words that are not well formed, and no other (30_encoding.md R69, R70). -/
theorem decode_eq_error_iff {w : RequestWord} :
    decode w = .error .reservedRequest ↔ requestWellFormed w = false := by
  rw [requestWellFormed_eq_false_iff]
  obtain hop | hop | hop | hop := opField_cases w
  · simp [decode_of_opField_checksum hop, hop]
  · simp [decode_of_opField_encode hop, hop]
  · by_cases hr : reservedField w = 0#23
    · simp [decode_of_opField_decode hop hr, hop, hr]
    · simp [decode_of_reservedField_ne hop hr, hop, hr]
  · simp [decode_of_opField_reserved hop, hop]

namespace Machine

/-- What a step answers: one of the two interface refusals with its cause, or a next state (60_exceptions.md R135). -/
theorem step_outcome_cases (s : State) :
    (step s = .refused .reservedRequest ∧
      ∃ w rest, s.pending = .request w :: rest ∧ requestWellFormed w = false) ∨
    (step s = .refused .paramOutOfRange ∧
      ∃ cmd p rest, s.pending = .callEncode cmd p :: rest ∧ ¬ paramInRange p = true) ∨
    ∃ t, step s = .next t := by
  cases hp : s.pending with
  | nil => exact .inr (.inr ⟨s, step_of_pending_nil hp⟩)
  | cons hd rest =>
    cases hd with
    | request w =>
      cases hw : decode w with
      | ok i =>
        obtain ⟨t, ht⟩ := exec_completes i (s.setPending rest)
        exact .inr (.inr ⟨t, (step_request hp hw).trans ht⟩)
      | error e =>
        cases e
        exact .inl ⟨step_request_reserved hp hw, w, rest, rfl, decode_eq_error_iff.mp hw⟩
    | callEncode cmd p =>
      by_cases hrange : paramInRange p = true
      · exact .inr (.inr ⟨_, step_callEncode hp hrange⟩)
      · exact .inr (.inl ⟨step_callEncode_refused hp hrange, cmd, p, rest, rfl, hrange⟩)
    | _ => exact .inr (.inr ⟨_, step_of_pending hp⟩)

theorem not_paramInRange_iff {p : Int} : ¬ paramInRange p = true ↔ p < 0 ∨ 0x10000 ≤ p := by
  rw [paramInRange_iff]
  omega

/-! Which result DECODE reports of a buffer (43_decode.md R107; 60_exceptions.md R136): the framing is wrong or the buffer is
framed, and of a framed one the checksum decides. -/

/-- The length or a delimiter is wrong (43_decode.md R101 to R103). -/
def WronglyFramed (buf : List Byte) : Prop :=
  buf.length ≠ 10 ∨ buf[0]? ≠ some 0x7E#8 ∨ buf[9]? ≠ some 0xEF#8

theorem wronglyFramed_or_eq_framed (buf : List Byte) : WronglyFramed buf ∨
    ∃ b1 b2 b3 b4 b5 b6 b7 b8, buf = [0x7E#8, b1, b2, b3, b4, b5, b6, b7, b8, 0xEF#8] := by
  by_cases hwrong : WronglyFramed buf
  · exact .inl hwrong
  · obtain ⟨hlen, h0, h9⟩ : buf.length = 10 ∧ buf[0]? = some 0x7E#8 ∧ buf[9]? = some 0xEF#8 := by
      simpa [WronglyFramed] using hwrong
    obtain ⟨b0, b1, b2, b3, b4, b5, b6, b7, b8, b9, rfl⟩ := eq_ten_of_length hlen
    obtain rfl : b0 = 0x7E#8 := Option.some_inj.mp h0
    obtain rfl : b9 = 0xEF#8 := Option.some_inj.mp h9
    exact .inr ⟨b1, b2, b3, b4, b5, b6, b7, b8, rfl⟩

theorem decodeFrame_wronglyFramed {buf : List Byte} (h : WronglyFramed buf) : decodeFrame true buf = .framing :=
  h.elim decodeFrame_badLength decodeFrame_wrongDelimiter

theorem decodeFrame_eq_noData_iff {avail : Bool} {buf : List Byte} :
    decodeFrame avail buf = .noData ↔ avail = false := by
  cases avail with
  | false => simp [decodeFrame_noData]
  | true =>
    obtain hwrong | ⟨b1, b2, b3, b4, b5, b6, b7, b8, rfl⟩ := wronglyFramed_or_eq_framed buf
    · simp [decodeFrame_wronglyFramed hwrong]
    · rw [decodeFrame_framed]
      split <;> simp

theorem decodeFrame_eq_framing_iff {buf : List Byte} : decodeFrame true buf = .framing ↔ WronglyFramed buf := by
  refine ⟨fun h => ?_, decodeFrame_wronglyFramed⟩
  obtain hwrong | ⟨b1, b2, b3, b4, b5, b6, b7, b8, rfl⟩ := wronglyFramed_or_eq_framed buf
  · exact hwrong
  · rw [decodeFrame_framed] at h
    split at h <;> cases h

theorem decodeFrame_eq_checksumMismatch_iff {buf : List Byte} : decodeFrame true buf = .checksumMismatch ↔
    ∃ b1 b2 b3 b4 b5 b6 b7 b8, buf = [0x7E#8, b1, b2, b3, b4, b5, b6, b7, b8, 0xEF#8] ∧
      checksum b3 b5 b6 ≠ be16 b7 b8 := by
  constructor
  · intro h
    obtain hwrong | ⟨b1, b2, b3, b4, b5, b6, b7, b8, rfl⟩ := wronglyFramed_or_eq_framed buf
    · rw [decodeFrame_wronglyFramed hwrong] at h
      cases h
    · refine ⟨b1, b2, b3, b4, b5, b6, b7, b8, rfl, fun hsum => ?_⟩
      rw [decodeFrame_rightChecksum hsum] at h
      cases h
  · rintro ⟨b1, b2, b3, b4, b5, b6, b7, b8, rfl, hsum⟩
    exact decodeFrame_wrongChecksum hsum

theorem exists_decodeFrame_eq_parsed_iff {buf : List Byte} : (∃ t v p, decodeFrame true buf = .parsed t v p) ↔
    ∃ b1 b2 b3 b4 b5 b6 b7 b8, buf = [0x7E#8, b1, b2, b3, b4, b5, b6, b7, b8, 0xEF#8] ∧
      checksum b3 b5 b6 = be16 b7 b8 := by
  constructor
  · rintro ⟨t, v, p, hparsed⟩
    obtain ⟨x1, x2, x4, h, -, rfl⟩ := decodeFrame_eq_parsed_iff.mp hparsed
    exact ⟨x1, x2, t, x4, h, v, _, _, rfl, (be16_bytes _).symm⟩
  · rintro ⟨b1, b2, b3, b4, b5, b6, b7, b8, rfl, hsum⟩
    exact ⟨b3, b6, be16 b5 b6, decodeFrame_rightChecksum hsum⟩

end Machine

open Machine in
/-- Settles O27: without data NO_DATA alone; with data the result tells the framing and the checksum. -/
theorem exactlyOneDecodeResult : Obligations.ExactlyOneDecodeResult := by
  intro s avail
  refine ⟨_, exec_decode avail s, decodeFrame_eq_noData_iff, ?_⟩
  cases avail with
  | false => simp [decodeFrame_noData]
  | true =>
    simp only [true_and]
    exact ⟨decodeFrame_eq_framing_iff, decodeFrame_eq_checksumMismatch_iff, exists_decodeFrame_eq_parsed_iff⟩

open Machine in
/-- Settles O38: each cause stops the step, and a stopped step had one of the two. -/
theorem stepStopsOnlyOnInterfaceRefusals : Obligations.StepStopsOnlyOnInterfaceRefusals := by
  intro s
  simp only [← not_paramInRange_iff]
  refine ⟨⟨fun h => ?_, ?_⟩, ⟨fun h => ?_, ?_⟩, ?_⟩
  · obtain ⟨-, hwhy⟩ | ⟨hstep, -⟩ | ⟨t, hstep⟩ := step_outcome_cases s
    · exact hwhy
    · cases h.symm.trans hstep
    · cases h.symm.trans hstep
  · rintro ⟨w, rest, hp, hwf⟩
    exact step_request_reserved hp (decode_eq_error_iff.mpr hwf)
  · obtain ⟨hstep, -⟩ | ⟨-, hwhy⟩ | ⟨t, hstep⟩ := step_outcome_cases s
    · cases h.symm.trans hstep
    · exact hwhy
    · cases h.symm.trans hstep
  · rintro ⟨cmd, p, rest, hp, hrange⟩
    exact step_callEncode_refused hp hrange
  · obtain ⟨hstep, -⟩ | ⟨hstep, -⟩ | hnext := step_outcome_cases s
    · exact .inr (.inl hstep)
    · exact .inr (.inr hstep)
    · exact .inl hnext

/-- Settles O34: each operation drives its port. -/
theorem everyOperationCompletes : Obligations.EveryOperationCompletes :=
  Machine.exec_completes

end Sys2Proof
end

section
/-! Proofs of the statements of 70_reset_and_hazards.md: what holds right after reset, and that no operation depends on it. -/

namespace Sys2Proof

namespace Machine

/-- Of the state, a request issued next can see in its output the input buffer alone (10_state.md R34). -/
theorem sameOwnOutput_of_issued {s s' : State} (i : Instr) (hbuf : s.decBuf = s'.decBuf) :
    ∃ t t', step (s.withFetchWord 32 (encode i).toNat) = .next t ∧
      step (s'.withFetchWord 32 (encode i).toNat) = .next t' ∧ sameOwnOutput i t t' := by
  obtain ⟨t, h⟩ := exec_completes i s
  obtain ⟨t', h'⟩ := exec_completes i s'
  exact ⟨t, t', (placedRequestRunsNext s i).trans h, (placedRequestRunsNext s' i).trans h', sameOwnOutput_of_exec hbuf h h'⟩

theorem wroteFrames_of_written_nil {s : State} (h : s.written = []) : WroteFrames s := by
  simp [WroteFrames, h]

end Machine

/-- Settles O50: reset, with the same buffer presented, is one of the states that agree on the buffer. -/
theorem firstOperationAsAnyLater : Obligations.FirstOperationAsAnyLater :=
  fun i _ => Machine.sameOwnOutput_of_issued i rfl

/-- Settles O47: no bytes are written, and the guard asks nothing of an empty list, so no ENCODE need have been done. -/
theorem wireInvariantAtReset : Obligations.WireInvariantAtReset :=
  ⟨Machine.wroteFrames_of_written_nil rfl, false, nofun, rfl⟩

end Sys2Proof
end
